-- ==== Sys2Proof/Word.lean ====
section
/-! DEFINITION. The words the DL241 manual treats as bits. -/

namespace Sys2Proof

/-- One byte of the line, of the port window or of the configuration image (R201). -/
abbrev Byte := BitVec 8

end Sys2Proof
end

