-- ==== Sys2Proof/Syntax.lean ====
section
/-! DEFINITION. The commands and events of the DL241: one constructor per row of spec/opcode_table.json.

Commands from outside carry what the outside supplies (a byte written, bytes read from the memory, levels on RXD).
Requests carry nothing: they run on the working request the port holds.
Events between two blocks carry nothing: they take the oldest matter handed over on their path (`Paths`).
Timer expiries name the entry by its index 1..64 (R1) or the peer row by its station number. -/

namespace Sys2Proof

inductive Instr where
  /-- POWER_UP (R145): power is applied. -/
  | powerUp
  /-- RST_N_ASSERT (R171): RST_N goes low. -/
  | rstNAssert
  /-- RST_N_RELEASE (R145): RST_N returns high. -/
  | rstNRelease
  /-- PORT_WRITE (R172): a byte is written at an address of the port window. -/
  | portWrite (addr : BitVec 6) (byte : Byte)
  /-- SUBMIT (R174): a write to SUBMIT. -/
  | submit
  /-- RETIRE (R175): a write to RETIRE. -/
  | retire
  /-- EVENT_NEXT (R196): a write to EVENT NEXT. -/
  | eventNext
  /-- READ (R179): OD takes the working READ request. -/
  | read
  /-- WRITE (R180): OD takes the working WRITE request. -/
  | write
  /-- CLAIM (R181): OD takes the working CLAIM request. -/
  | claim
  /-- RELEASE (R182): OD takes the working RELEASE request. -/
  | release
  /-- QUERY (R183): OD takes the working QUERY request. -/
  | query
  /-- PEER (R184): PM takes the working PEER request. -/
  | peer
  /-- STATUS (R186): SC takes the working STATUS request. -/
  | status
  /-- COUNTERS (R187): EU takes the working COUNTERS request. -/
  | counters
  /-- TAKE_UNLISTED (R185): TF takes the working TAKE_UNLISTED request. -/
  | takeUnlisted
  /-- ATTEND (R188): EU takes the working ATTEND request. -/
  | attend
  /-- JOIN (R189): SC takes the working JOIN request. -/
  | join
  /-- LEAVE (R190): SC takes the working LEAVE request. -/
  | leave
  /-- RESTART_LINE (R158): SC takes the working RESTART request of scope LINE. -/
  | restartLine
  /-- RESTART_FULL (R159): SC takes the working RESTART request of scope FULL. -/
  | restartFull
  /-- LOAD (R168): IL takes the working LOAD request without FINISH. -/
  | load
  /-- LOAD_FINISH (R168): IL takes the working LOAD request with FINISH. -/
  | loadFinish
  /-- READ_HEADER (R164): part 1 of the memory read completes with these 17 bytes. -/
  | readHeader (bytes : List Byte)
  /-- READ_REMAINDER (R164): part 2 of the memory read completes with these 10 × n + 2 bytes. -/
  | readRemainder (bytes : List Byte)
  /-- ATTEMPT_FAILED (R165): the memory does not acknowledge an address byte. -/
  | attemptFailed
  /-- ATTEMPT_WAIT_EXPIRY (R165): the 10 ms wait after a failed attempt ends. -/
  | attemptWaitExpiry
  /-- LINE_QUIET (R112): 12 consecutive bit times at 1 with TXEN inactive have passed. -/
  | lineQuiet
  /-- TAKE (R115): LC starts a fresh telegram `age` bit times after the start of quiet. -/
  | take (age : Nat)
  /-- RETRY_ATTEMPT (R118): LC starts the next attempt `age` bit times after the start of quiet. -/
  | retryAttempt (age : Nat)
  /-- SENT (R116): the stop bit of the last check byte is read back equal. -/
  | sent
  /-- COLLISION (R117): in bit time `bit` of the attempt RXD reads `level`. -/
  | collision (bit : Nat) (level : Bool)
  /-- JAM_END (R117): the 16 bit times of the jam are over. -/
  | jamEnd
  /-- RECEPTION (R120): the reception in progress ends; `levels` are RXD's levels from its first bit time. -/
  | reception (levels : List Bool)
  /-- DELIVERED_TELEGRAM (R100): TF takes the oldest telegram LC delivered. -/
  | deliveredTelegram
  /-- DUPLICATE (R157): SC takes a duplicate report. -/
  | duplicate
  /-- CAPTURE (R107): the ring takes the oldest PUBLISH handed to it. -/
  | capture
  /-- HEARD (R78): PM takes the oldest heard telegram, a PUBLISH, QUERY, CLAIM or YIELD. -/
  | heard
  /-- PRESENCE_HEARD (R80): PM takes the oldest heard telegram, a PRESENCE JOINING or ACTIVE. -/
  | presenceHeard
  /-- LEAVING_PRESENCE_HEARD (R81): PM takes the oldest heard telegram, a PRESENCE LEAVING. -/
  | leavingPresenceHeard
  /-- PEER_NOTICE (R50): OD takes the oldest notice PM gave. -/
  | peerNotice
  /-- PUBLISH_RECEIVED (R47): OD takes the oldest telegram routed to it, a PUBLISH. -/
  | publishReceived
  /-- CLAIM_RECEIVED (R38): OD takes the oldest telegram routed to it, a CLAIM. -/
  | claimReceived
  /-- YIELD_RECEIVED (R48): OD takes the oldest telegram routed to it, a YIELD. -/
  | yieldReceived
  /-- QUERY_RECEIVED (R72): OD takes the oldest telegram routed to it, a QUERY. -/
  | queryReceived
  /-- OUTCOME_REPORT (R130): OD takes the oldest outcome report of an entry's telegram. -/
  | outcomeReport
  /-- SLOTS_CLEAR_NOTICE (R141): SC takes OD's slots-clear notice. -/
  | slotsClearNotice
  /-- PRESENCE_OUTCOME (R89): SC takes the outcome of the station's PRESENCE. -/
  | presenceOutcome
  /-- MUTED_REPORT (R155): SC takes LC's MUTED report. -/
  | mutedReport
  /-- FRESHNESS_DEADLINE_EXPIRY (R73) of the entry of that index. -/
  | freshnessDeadlineExpiry (index : Nat)
  /-- REFRESH_TIMER_EXPIRY (R60) of the entry of that index. -/
  | refreshTimerExpiry (index : Nat)
  /-- SPACING_TIMER_EXPIRY (R63) of the entry of that index. -/
  | spacingTimerExpiry (index : Nat)
  /-- CLAIM_WINDOW_EXPIRY (R36) of the entry of that index. -/
  | claimWindowExpiry (index : Nat)
  /-- TAKEOVER_TIMER_EXPIRY (R52) of the entry of that index. -/
  | takeoverTimerExpiry (index : Nat)
  /-- SILENCE_DEADLINE_EXPIRY (R79) of the row of that station. -/
  | silenceDeadlineExpiry (station : Nat)
  /-- JOIN_LISTEN_EXPIRY (R150); `presenceFirst` says which of steps 3 and 4 reaches TS first, which R150 leaves open. -/
  | joinListenExpiry (presenceFirst : Bool)
  /-- PRESENCE_TIMER_EXPIRY (R87). -/
  | presenceTimerExpiry
  /-- MUTE_TIMER_EXPIRY (R156). -/
  | muteTimerExpiry
  /-- LINE_BUSY (R112): RXD shows 0. -/
  | lineBusy
  /-- MILLISECOND_TICK (R193): one millisecond of the timebase passes. -/
  | millisecondTick
  deriving DecidableEq, Repr

end Sys2Proof
end

