-- ==== Sys2Proof/Config.lean ====
section
/-! DEFINITION. What the part fixes (capacities, thresholds, line times) and the one free sequence the manual leaves unpredictable. -/

namespace Sys2Proof.Config

/-- Capacity of the URGENT queue (R131). -/
abbrev urgentCapacity : Nat := 8

/-- Capacity of the ROUTINE queue (R131). -/
abbrev routineCapacity : Nat := 16

/-- BACKLOG is set at this ROUTINE occupancy or above (R138). -/
abbrev backlogEnter : Nat := 12

/-- BACKLOG clears at this ROUTINE occupancy or below (R138). -/
abbrev backlogClear : Nat := 4

/-- Capacity of the event queue (R195). -/
abbrev eventCapacity : Nat := 32

/-- A counter brought to exactly this value posts HARVEST while armed (R199). -/
abbrev harvestMark : BitVec 16 := 49152#16

/-- Records the Unlisted Capture ring holds at most (R106). -/
abbrev ringCapacity : Nat := 4

/-- Rows of the peer table, one per station number (R77). -/
abbrev peerRows : Nat := 31

/-- Bytes of the request area and of the response area (R204). -/
abbrev areaSize : Nat := 40

/-- Bytes of the staging buffer (R161). -/
abbrev stagingSize : Nat := 659

/-- Bit times of one slot (R110). -/
abbrev slotBits : Nat := 20

/-- Slots of the ROUTINE class gap (R113). -/
abbrev routineGapSlots : Nat := 3

/-- Attempts a telegram has before it is abandoned (R119). -/
abbrev attemptLimit : Nat := 8

/-- Abandonments in a row that halt the Line Controller (R122). -/
abbrev abandonLimit : Nat := 3

/-- Bit times at 1 that end a telegram and make the line view QUIET (R112, R120). -/
abbrev quietBits : Nat := 12

/-- A reception fails when a byte beyond this many begins (R120). -/
abbrev receptionLimit : Nat := 263

/-- Failed attempts of the memory read after which the Image Loader gives up (R165). -/
abbrev readAttempts : Nat := 3

/-- Wait after a failed attempt of the memory read, in ms (R165). -/
abbrev readWait : Nat := 10

/-- The seven-bit device address of the serial memory (R164). -/
abbrev linkDevice : BitVec 7 := 0x56#7

/-- Bytes of part 1 of the memory read, the header (R164). -/
abbrev headerBytes : Nat := 17

/-- FREE VALUE (R84, R118). The free-running sequence from which the epoch and the backoff are drawn.
Nothing is known of its values. `State.draws` counts the draws taken and is what it is applied to. -/
opaque freeSequence : Nat → Nat

end Sys2Proof.Config
end

