-- ==== Sys2Proof/Machine/State.lean ====
section
/-! DEFINITION. All the state the manual gives the DL241, block by block, as plain data; the stops; the state right after reset. -/

namespace Sys2Proof.Machine

/-- An addressed buffer: (offset, byte) pairs with strictly rising offsets and no byte 0.
An offset that is not listed reads 0, its full-restart value (R161, R173). -/
abbrev Memory := List Host.Cell

/-- A timer in ms: stopped (`none`), or running with this many ms left. A running timer with 0 left is due. -/
abbrev Timer := Option Nat

/-! ## Names -/

/-- Roles of an entry (R3). -/
inductive Role where
  | home | spare | listen
  deriving DecidableEq, Repr

/-- Classes of telegrams (R4). -/
inductive TxClass where
  | urgent | routine
  deriving DecidableEq, Repr

/-- Notify settings of an entry (R19). -/
inductive Notify where
  | none | change | every
  deriving DecidableEq, Repr

/-- Freshness states (R12). -/
inductive Freshness where
  | never | fresh | stale
  deriving DecidableEq, Repr

/-- Telegram kinds an entry sends (R128). -/
inductive OutKind where
  | publish | claim | yield | query
  deriving DecidableEq, Repr

/-- The five telegram kinds (R93). -/
inductive TelegramKind where
  | publish | query | claim | yield | presence
  deriving DecidableEq, Repr

/-- Station states (R143). -/
inductive StationState where
  | loading | unconfigured | detached | listening | active | leaving | muted | faulted
  deriving DecidableEq, Repr

/-- Causes a STATION record reports (R144). -/
inductive StationCause where
  | reset | restartFull | imageFault | imageLoaded | join | listenDone | leave | leaveDone
  | lineFailure | muteDone | duplicate | restartLine
  deriving DecidableEq, Repr

/-- Fault codes of the Image Loader (R161). -/
inductive FaultCode where
  | none | noMemory | badFormat | badCount | badCheck | badStation | badRate | badTiming | badEntry | duplicateObject
  deriving DecidableEq, Repr

/-- Statuses a PRESENCE carries (R99). -/
inductive PresenceStatus where
  | joining | active | leaving
  deriving DecidableEq, Repr

/-- The two outcomes of a telegram (R130). -/
inductive TxOutcome where
  | sent | abandoned
  deriving DecidableEq, Repr

/-- Causes of a notice from PM to OD (R82). -/
inductive NoticeCause where
  | absent | leaving | restarted
  deriving DecidableEq, Repr

/-- Response statuses (R178). -/
inductive Status where
  | ok | accepted | noObject | notOwner | notEligible | already | length | wrongState | badRequest | empty | imageFault
  deriving DecidableEq, Repr

/-- The eight statistics counters (R199). -/
inductive Counter where
  | txSent | rxGood | rxBad | collisions | abandoned | shed | oldVersion | refused
  deriving DecidableEq, Repr

/-- The six categories of the category mask (R198). -/
inductive Category where
  | ownership | data | peers | line | station | port
  deriving DecidableEq, Repr

/-! ## Telegrams -/

/-- A telegram's fields as they stand on the line, without the check bytes (R93, R202).
`length` is the header's byte and `payload` the payload bytes kept, at most 32 on reception (R120). -/
structure Telegram where
  kind : BitVec 4
  flags : BitVec 4
  source : Byte
  objectId : BitVec 12
  rank : BitVec 4
  version : Byte
  length : Byte
  payload : List Byte
  deriving DecidableEq, Repr

/-! ## Object Directory -/

/-- The declared fields of an entry (R2), in ms where a period is meant. -/
structure Decl where
  objectId : BitVec 12
  role : Role
  rank : BitVec 4
  takeover : Bool
  cls : TxClass
  notify : Notify
  maxLength : Nat
  refresh : Nat
  staleFactor : Nat
  spacing : Nat
  deriving DecidableEq, Repr

/-- A consumer state with the owner, owner rank and any-version flag it records (R5, R27).
It is also the shape of a CLAIMING entry's prior state (R6). -/
inductive View where
  | unknown
  | foreign (owner : Byte) (rank : BitVec 4) (anyVersion : Bool)
  | orphaned (owner : Byte) (rank : BitVec 4)
  deriving DecidableEq, Repr

/-- The ownership state (R27). In CLAIMING, OWN and YIELDING the owner is the own station and the owner rank the entry's own (R5).
`changed` says that R35 or R37 has changed the prior state during the claim, so that a return posts OWNER_CHANGED. -/
inductive Ownership where
  | consumer (view : View)
  | claiming (prior : View) (changed : Bool)
  | own
  | yielding
  deriving DecidableEq, Repr

/-- The telegram an entry has outbound, as its slot records it (R127). -/
structure Outbound where
  kind : OutKind
  cls : TxClass
  refresh : Bool
  answer : Bool
  successor : Option Byte
  deriving DecidableEq, Repr

/-- What is recorded against an IN_FLIGHT telegram (R129). -/
inductive FollowUp where
  | none
  | publish (cls : TxClass)
  | yield (successor : Option Byte)
  | cancel
  deriving DecidableEq, Repr

/-- The outbound slot (R127). -/
inductive Slot where
  | none
  | waiting (o : Outbound)
  | owed (o : Outbound)
  | queued (o : Outbound)
  | inFlight (o : Outbound) (follow : FollowUp)
  deriving DecidableEq, Repr

/-- A directory entry: declared fields (R2) and dynamic fields (R5, R7). -/
structure Entry where
  decl : Decl
  ownership : Ownership
  version : Option Byte
  value : List Byte
  freshness : Freshness
  slot : Slot
  pendingTag : Option Byte
  freshTimer : Timer
  refreshTimer : Timer
  spacingTimer : Timer
  windowTimer : Timer
  takeoverTimer : Timer
  deriving DecidableEq, Repr

/-- OD's state: the entries in image order, the owed lists of entry indexes (R132), the claim window in ms (R143). -/
structure Od where
  entries : List Entry
  urgentOwed : List Nat
  routineOwed : List Nat
  claimWindow : Option Nat
  deriving DecidableEq, Repr

/-! ## Transmit Scheduler -/

/-- A reference in a queue: an entry by its index, or the station's PRESENCE (R131). -/
inductive Ref where
  | entry (index : Nat)
  | presence
  deriving DecidableEq, Repr

/-- TS's state: the two queues, oldest first (R131), and BACKLOG (R138). -/
structure Ts where
  urgent : List Nat
  routine : List Ref
  backlog : Bool
  deriving DecidableEq, Repr

/-! ## Line Controller -/

/-- The line view (R112). -/
inductive LineView where
  | quiet | busy
  deriving DecidableEq, Repr

/-- The telegram LC holds from the take to its outcome: frozen telegram, class, reference, attempt count 1..8 (R113, R115). -/
structure Held where
  telegram : Telegram
  cls : TxClass
  ref : Ref
  attempt : Nat
  deriving DecidableEq, Repr

/-- The transmit side (R113); the backoff draw, in slots, exists only in RETRY_WAIT. -/
inductive TxState where
  | off
  | idle
  | transmitting (h : Held)
  | jamming (h : Held)
  | retryWait (h : Held) (draw : Nat)
  | halted
  deriving DecidableEq, Repr

/-- LC's state. `view` is absent while the receiver is off (R112).
`receiving` says that activity has begun from QUIET outside the own transmission, so that a reception may be in progress (R120). -/
structure Lc where
  tx : TxState
  view : Option LineView
  receiving : Bool
  abandons : Nat
  recovery : Bool
  rate : Option (BitVec 2)
  deriving DecidableEq, Repr

/-! ## Telegram Filter and Peer Monitor -/

/-- A record of the Unlisted Capture ring (R106). -/
structure Capture where
  objectId : BitVec 12
  source : Byte
  version : Byte
  value : List Byte
  deriving DecidableEq, Repr

/-- TF's state: interest mask (R104) and ring, oldest first (R106). -/
structure Tf where
  interest : BitVec 64
  ring : List Capture
  deriving DecidableEq, Repr

/-- A row of the peer table (R77); the period is in ms. -/
structure PeerRow where
  present : Bool
  epoch : Option (BitVec 12)
  period : Nat
  deadline : Timer
  deriving DecidableEq, Repr

/-- PM's state: the row of station n stands at position n - 1 (R77). -/
structure Pm where
  rows : List PeerRow
  deriving DecidableEq, Repr

/-! ## Station Controller -/

/-- The presence record with the owed-PRESENCE flag as its OWED state (R85). -/
inductive Presence where
  | none
  | owed (status : PresenceStatus)
  | queued (status : PresenceStatus)
  | inFlight (status : PresenceStatus) (follow : Option PresenceStatus)
  deriving DecidableEq, Repr

/-- The station record (R143); periods in ms. -/
structure Sc where
  state : StationState
  number : Option Byte
  epoch : Option (BitVec 12)
  period : Option Nat
  joinListen : Option Nat
  muteInterval : Option Nat
  autoJoin : Option Bool
  presence : Presence
  joinTimer : Timer
  presenceTimer : Timer
  muteTimer : Timer
  leaveTag : Option Byte
  deriving DecidableEq, Repr

/-! ## Image Loader -/

/-- Where the read of the memory stands (R164, R165): part 1 or part 2 on the link, or the wait after a failed attempt with the ms left. -/
inductive ReadStep where
  | header
  | remainder
  | wait (left : Nat)
  deriving DecidableEq, Repr

/-- IL's phase (R161); READING carries the step of the read and the number of failed attempts. -/
inductive Phase where
  | reading (step : ReadStep) (failed : Nat)
  | awaitingLoad
  | installed
  deriving DecidableEq, Repr

/-- The image record (R161). -/
structure Il where
  phase : Phase
  staging : Memory
  fault : FaultCode
  faultIndex : Nat
  deriving DecidableEq, Repr

/-! ## Local Port -/

/-- A response's fields (R204). -/
structure Response where
  code : Byte
  tag : Byte
  status : Status
  version : Byte
  objectId : BitVec 16
  station : Byte
  length : Byte
  value : List Byte
  deriving DecidableEq, Repr

/-- The port state with the working request while WORKING and the response area while DONE (R172, R173). -/
inductive PortState where
  | ready
  | working (request : Memory)
  | done (response : Response)
  deriving DecidableEq, Repr

/-- The port record (R173). -/
structure Lp where
  port : PortState
  submitIgnored : Bool
  request : Memory
  deriving DecidableEq, Repr

/-! ## Event Unit -/

/-- Details of CLAIM_OUTCOME (R205). -/
inductive ClaimOutcome where
  | won | lost | cancelled | failed
  deriving DecidableEq, Repr

/-- Details of RELEASE_OUTCOME (R205). -/
inductive ReleaseOutcome where
  | released | unannounced
  deriving DecidableEq, Repr

/-- Details of OWNERSHIP_LOST (R205). -/
inductive LossCause where
  | conflict | handback | muted | restart | fault
  deriving DecidableEq, Repr

/-- Details of OWNER_CHANGED (R205). -/
inductive OwnerChange where
  | newOwner | orphaned
  deriving DecidableEq, Repr

/-- Details of PEER (R205). -/
inductive PeerDetail where
  | joined | absent | restarted | leaving
  deriving DecidableEq, Repr

/-- Details of BACKLOG (R205). -/
inductive BacklogDetail where
  | entered | cleared
  deriving DecidableEq, Repr

/-- Details of LINE (R205). -/
inductive LineDetail where
  | muted | recovered
  deriving DecidableEq, Repr

/-- Event kinds with their details (R194). -/
inductive EventKind where
  | none
  | claimOutcome (d : ClaimOutcome)
  | releaseOutcome (d : ReleaseOutcome)
  | ownershipLost (d : LossCause)
  | ownerChanged (d : OwnerChange)
  | arrival
  | stale
  | fresh
  | valueRefused
  | unlisted
  | peer (d : PeerDetail)
  | backlog (d : BacklogDetail)
  | line (d : LineDetail)
  | station (state : StationState) (cause : StationCause)
  | harvest
  | lost (count : Byte)
  deriving DecidableEq, Repr

/-- An event record (R193). A version of `none` is the encoding of none held (R205). -/
structure EventRecord where
  kind : EventKind
  id : BitVec 12
  tag : Byte
  version : Option Byte
  time : BitVec 16
  deriving DecidableEq, Repr

/-- The record of kind NONE: every field 0 (R193). -/
def EventRecord.empty : EventRecord := ⟨.none, 0#12, 0#8, some 0#8, 0#16⟩

/-- The eight counters (R199). -/
structure Counters where
  txSent : BitVec 16
  rxGood : BitVec 16
  rxBad : BitVec 16
  collisions : BitVec 16
  abandoned : BitVec 16
  shed : BitVec 16
  oldVersion : BitVec 16
  refused : BitVec 16
  deriving DecidableEq, Repr

/-- All eight counters at 0. -/
def Counters.zero : Counters := ⟨0#16, 0#16, 0#16, 0#16, 0#16, 0#16, 0#16, 0#16⟩

/-- EU's state (R193 to R199). Position k of the mask is category k in the order of `Category` (R204). -/
structure Eu where
  queue : List EventRecord
  lost : Byte
  window : EventRecord
  mask : BitVec 6
  counters : Counters
  harvestArmed : Bool
  clock : BitVec 16
  deriving DecidableEq, Repr

/-! ## Matters handed over between blocks -/

/-- A notice PM gives OD (R82). -/
structure Notice where
  station : Byte
  cause : NoticeCause
  deriving DecidableEq, Repr

/-- The slots-clear notice of one LEAVING (R141). -/
inductive ClearNotice where
  | notGiven | handed | taken
  deriving DecidableEq, Repr

/-- Matters one block has handed to another and the other has not taken yet, one field per path, oldest first.
The manual takes each as an event of its own, so what is handed over is state between the two events. -/
structure Paths where
  /-- LC to TF: delivered telegrams (R121). -/
  toTf : List Telegram
  /-- TF to PM: heard telegrams (R102). -/
  toPm : List Telegram
  /-- TF to OD: routed telegrams (R103). -/
  toOd : List Telegram
  /-- TF to the ring: PUBLISHes to capture (R104). -/
  toRing : List Telegram
  /-- PM to OD: notices (R82). -/
  notices : List Notice
  /-- LC through TS to OD: outcome reports, by entry index (R130). -/
  reports : List (Nat × TxOutcome)
  /-- LC through TS to SC: the outcome of the PRESENCE (R89). -/
  presenceReport : Option TxOutcome
  /-- LC to SC: a MUTED report (R122). -/
  mutedReport : Bool
  /-- TF to SC: how many duplicate reports wait (R90). -/
  duplicates : Nat
  /-- OD to SC: the slots-clear notice (R141). -/
  clearNotice : ClearNotice
  deriving DecidableEq, Repr

/-! ## The state -/

/-- The whole state of the part.
`rstLow` is the level of the RST_N input. `draws` is the model's own count of draws from the free-running sequence.
`pending` is the queue of commands waiting to be taken, first in, first out. -/
structure State where
  rstLow : Bool
  od : Od
  ts : Ts
  lc : Lc
  tf : Tf
  pm : Pm
  sc : Sc
  il : Il
  lp : Lp
  eu : Eu
  paths : Paths
  draws : Nat
  pending : List Instr
  deriving DecidableEq, Repr

/-- Stops with a fault. The manual names no event that stops the part, so there is none: no meaning raises a fault. -/
inductive Fault where
  deriving DecidableEq, Repr

/-- Rejections. -/
inductive Refusal where
  /-- Raised by `exec` for a command that has no meaning yet, with its mnemonic; safe, since nothing is claimed of it. -/
  | notModelled (mnemonic : String)
  deriving DecidableEq, Repr

/-- The outcome of a command. -/
abbrev Out := Host.Outcome State Fault Refusal

/-- The state right after a full restart by power-up or RST_N (R145, R143, R161, R173, R92, R109, R126, R142, R200):
LOADING, the memory read at its part 1, and STATION (LOADING, RESET) as the one record queued.
The period of a peer row before installation is a DESIGN CHOICE, 0 (assumption 7); it is not read by any event.
That OD holds no claim window before installation is a DESIGN CHOICE too (assumption 30); there is no entry then that could use one. -/
def State.reset : State where
  rstLow := false
  od := { entries := [], urgentOwed := [], routineOwed := [], claimWindow := none }
  ts := { urgent := [], routine := [], backlog := false }
  lc := { tx := .off, view := none, receiving := false, abandons := 0, recovery := false, rate := none }
  tf := { interest := 0#64, ring := [] }
  pm := { rows := List.replicate Config.peerRows ⟨false, none, 0, none⟩ }
  sc := { state := .loading, number := none, epoch := none, period := none, joinListen := none, muteInterval := none,
          autoJoin := none, presence := .none, joinTimer := none, presenceTimer := none, muteTimer := none, leaveTag := none }
  il := { phase := .reading .header 0, staging := [], fault := .none, faultIndex := 0 }
  lp := { port := .ready, submitIgnored := false, request := [] }
  eu := { queue := [⟨.station .loading .reset, 0#12, 0#8, some 0#8, 0#16⟩], lost := 0#8, window := EventRecord.empty,
          mask := 63#6, counters := Counters.zero, harvestArmed := true, clock := 0#16 }
  paths := { toTf := [], toPm := [], toOd := [], toRing := [], notices := [], reports := [], presenceReport := none,
             mutedReport := false, duplicates := 0, clearNotice := .notGiven }
  draws := 0
  pending := []

end Sys2Proof.Machine
end

