-- ==== Sys2Proof/WellFormed.lean ====
section
/-! DEFINITION. Which commands are well formed: operands in the ranges the manual gives them, whatever the state. -/

namespace Sys2Proof

/-- The start sequence: 6 bit times at 0 followed by 2 at 1 (R110). -/
def startSequence : List Bool := [false, false, false, false, false, false, true, true]

/-- Entry indexes run from 1 to 64 (R1). -/
def wellFormedIndex (i : Nat) : Bool := decide (1 ≤ i ∧ i ≤ 64)

/-- The operands of a command lie in the ranges the manual gives them.
A command that is not well formed names no event of the part; in every state the part can reach, `exec` gives it no effect (assumption 2). -/
def Instr.wellFormed : Instr → Bool
  | .readHeader bytes => decide (bytes.length = 17)
  | .readRemainder bytes => decide (12 ≤ bytes.length ∧ bytes.length ≤ 642 ∧ bytes.length % 10 = 2)
  | .collision bit _ => decide (bit < 408)
  | .reception levels => startSequence.isPrefixOf levels
  | .freshnessDeadlineExpiry i => wellFormedIndex i
  | .refreshTimerExpiry i => wellFormedIndex i
  | .spacingTimerExpiry i => wellFormedIndex i
  | .claimWindowExpiry i => wellFormedIndex i
  | .takeoverTimerExpiry i => wellFormedIndex i
  | .silenceDeadlineExpiry n => decide (1 ≤ n ∧ n ≤ 31)
  | .powerUp | .rstNAssert | .rstNRelease | .portWrite _ _ | .submit | .retire | .eventNext
  | .read | .write | .claim | .release | .query | .peer | .status | .counters | .takeUnlisted | .attend
  | .join | .leave | .restartLine | .restartFull | .load | .loadFinish
  | .attemptFailed | .attemptWaitExpiry | .lineQuiet | .take _ | .retryAttempt _ | .sent | .jamEnd
  | .deliveredTelegram | .duplicate | .capture | .heard | .presenceHeard | .leavingPresenceHeard | .peerNotice
  | .publishReceived | .claimReceived | .yieldReceived | .queryReceived | .outcomeReport | .slotsClearNotice
  | .presenceOutcome | .mutedReport | .joinListenExpiry _ | .presenceTimerExpiry | .muteTimerExpiry
  | .lineBusy | .millisecondTick => true

end Sys2Proof
end

