-- ==== Sys2Proof/Machine/Operands.lean ====
section
/-! DEFINITION. Operand forms: buffers, requests and responses, telegrams and their line image, framing, CRC-16, keys, codes, layouts. -/

namespace Sys2Proof.Machine

/-! ## Buffers -/

/-- The byte at an offset; an unlisted offset reads 0. -/
def Memory.read : Memory → Nat → Byte
  | [], _ => 0#8
  | (a, b) :: m, k => if a = k then b else Memory.read m k

/-- Write one byte, keeping the canonical form: writing 0 removes the offset. -/
def Memory.write : Memory → Nat → Byte → Memory
  | [], k, v => if v = 0#8 then [] else [(k, v)]
  | (a, b) :: m, k, v =>
    if k < a then (if v = 0#8 then (a, b) :: m else (k, v) :: (a, b) :: m)
    else if k = a then (if v = 0#8 then m else (k, v) :: m)
    else (a, b) :: Memory.write m k v

/-- Write bytes at rising offsets from `k`. -/
def Memory.writeAll (m : Memory) (k : Nat) : List Byte → Memory
  | [] => m
  | b :: bs => Memory.writeAll (m.write k b) (k + 1) bs

/-- `n` bytes at rising offsets from `k`. -/
def Memory.readAll (m : Memory) (k : Nat) : Nat → List Byte
  | 0 => []
  | n + 1 => m.read k :: Memory.readAll m (k + 1) n

/-- Offsets rise strictly from `low` on, and no byte is 0. -/
def Memory.wfFrom : Nat → Memory → Bool
  | _, [] => true
  | low, (a, b) :: m => decide (low ≤ a) && decide (b ≠ 0#8) && Memory.wfFrom (a + 1) m

/-- The canonical form: offsets strictly rising, no entry equal to what an unlisted offset reads as. -/
def Memory.wf (m : Memory) : Bool := Memory.wfFrom 0 m

/-- Every listed offset lies below `n`. -/
def Memory.within (n : Nat) (m : Memory) : Bool := m.all fun c => decide (c.1 < n)

/-- A 16-bit number stored high byte first (R201). -/
def Memory.read16 (m : Memory) (k : Nat) : BitVec 16 := m.read k ++ m.read (k + 1)

/-- The high byte of a 16-bit number. -/
def highByte (w : BitVec 16) : Byte := w.extractLsb' 8 8

/-- The low byte of a 16-bit number. -/
def lowByte (w : BitVec 16) : Byte := w.extractLsb' 0 8

/-! ## CRC-16 -/

/-- One bit of the CRC-16: shift left, and reduce by x^16 + x^12 + x^5 + 1 (R121). -/
def crcBit (r : BitVec 16) : BitVec 16 := if r.msb then (r <<< 1) ^^^ 0x1021#16 else r <<< 1

/-- One byte of the CRC-16, most significant bit first (R121). -/
def crcByte (r : BitVec 16) (b : Byte) : BitVec 16 :=
  crcBit (crcBit (crcBit (crcBit (crcBit (crcBit (crcBit (crcBit (r ^^^ (b ++ 0#8)))))))))

/-- The CRC-16 of bytes in the order they stand, from FFFFh, with no final inversion (R121). -/
def crc16 (bytes : List Byte) : BitVec 16 := bytes.foldl crcByte 0xFFFF#16

/-! ## Telegrams -/

/-- The kind a kind code stands for; codes 0 and 6..15 stand for none (R202). -/
def TelegramKind.ofCode (c : BitVec 4) : Option TelegramKind :=
  if c = 1#4 then some .publish
  else if c = 2#4 then some .query
  else if c = 3#4 then some .claim
  else if c = 4#4 then some .yield
  else if c = 5#4 then some .presence
  else none

/-- The code of a telegram kind (R202). -/
def TelegramKind.code : TelegramKind → BitVec 4
  | .publish => 1#4
  | .query => 2#4
  | .claim => 3#4
  | .yield => 4#4
  | .presence => 5#4

/-- The code of a PRESENCE status (R99). -/
def PresenceStatus.code : PresenceStatus → BitVec 4
  | .joining => 1#4
  | .active => 2#4
  | .leaving => 3#4

/-- The kind of a telegram, if its code is one of the five. -/
def Telegram.kindOf (t : Telegram) : Option TelegramKind := TelegramKind.ofCode t.kind

/-- Flag bit 2, NONE-HELD (R202). -/
def Telegram.noneHeld (t : Telegram) : Bool := t.flags.getLsbD 2

/-- The flags nibble: bit 0 REFRESH, bit 1 ANSWER, bit 2 NONE-HELD, bit 3 sent as 0 (R202). -/
def flagBits (refresh answer noneHeld : Bool) : BitVec 4 :=
  (if refresh then 1#4 else 0#4) ||| (if answer then 2#4 else 0#4) ||| (if noneHeld then 4#4 else 0#4)

/-- The six header bytes and the payload (R202). -/
def Telegram.body (t : Telegram) : List Byte :=
  [t.kind ++ t.flags, t.source, t.objectId.extractLsb' 4 8, t.objectId.extractLsb' 0 4 ++ t.rank, t.version, t.length] ++ t.payload

/-- All bytes of a telegram on the line: header, payload, check bytes high byte first (R202). -/
def Telegram.bytes (t : Telegram) : List Byte :=
  t.body ++ [highByte (crc16 t.body), lowByte (crc16 t.body)]

/-- The telegram in the bytes of a framed reception: the header and at most 32 payload bytes are kept (R120, R202). -/
def Telegram.ofBytes (bytes : List Byte) : Telegram :=
  let b := fun k => bytes.getD k 0#8
  { kind := (b 0).extractLsb' 4 4
    flags := (b 0).extractLsb' 0 4
    source := b 1
    objectId := (b 2) ++ ((b 3).extractLsb' 4 4)
    rank := (b 3).extractLsb' 0 4
    version := b 4
    length := b 5
    payload := ((bytes.drop 6).take (bytes.length - 8)).take 32 }

/-- The successor a YIELD of length 1 names; one of length 0 names none (R98). -/
def Telegram.successor (t : Telegram) : Option Byte :=
  if t.length = 1#8 then t.payload.head? else none

/-- The key of a station for an object: rank × 32 + station number (R8). -/
def key (rank : BitVec 4) (station : Byte) : Nat := rank.toNat * 32 + station.toNat

/-- The key of a telegram's sender (R8). -/
def Telegram.key (t : Telegram) : Nat := Machine.key t.rank t.source

/-- The number of the interest bit of an object id (R104). -/
def interestBit (id : BitVec 12) : Nat := (((id >>> 6) ^^^ id) &&& 63#12).toNat

/-! ## The line image of a telegram and its framing -/

/-- The levels of one byte: a start bit at 0, eight data bits least significant first, a stop bit at 1 (R110). -/
def byteLevels (b : Byte) : List Bool :=
  [false, b.getLsbD 0, b.getLsbD 1, b.getLsbD 2, b.getLsbD 3, b.getLsbD 4, b.getLsbD 5, b.getLsbD 6, b.getLsbD 7, true]

/-- The levels of bytes sent directly one after another (R110). -/
def bytesLevels : List Byte → List Bool
  | [] => []
  | b :: bs => byteLevels b ++ bytesLevels bs

/-- The levels of a telegram on the line, one per bit time (R110). -/
def Telegram.levels (t : Telegram) : List Bool := startSequence ++ bytesLevels t.bytes

/-- Where the framing of a reception stands (R120). -/
inductive Framing where
  /-- The next start bit is due; the line has shown 1 for `ones` bit times since. -/
  | due (ones : Nat) (bytes : List Byte)
  /-- `got` data bits of a byte have been read. -/
  | data (got : Nat) (byte : Byte) (bytes : List Byte)
  /-- The reception has ended in a framing failure. -/
  | failed
  /-- The reception has ended with an end of telegram. -/
  | ended (bytes : List Byte)
  deriving DecidableEq, Repr

/-- One bit time of a reception after its start sequence (R120). -/
def Framing.bit : Framing → Bool → Framing
  | .due ones bytes, true => if ones + 1 = Config.quietBits then .ended bytes else .due (ones + 1) bytes
  | .due ones bytes, false =>
    if ones = 0 then (if bytes.length < Config.receptionLimit then .data 0 0#8 bytes else .failed) else .failed
  | .data got byte bytes, level =>
    if got < 8 then .data (got + 1) (if level then byte ||| (1#8 <<< got) else byte) bytes
    else if level then .due 0 (bytes ++ [byte]) else .failed
  | .failed, _ => .failed
  | .ended bytes, _ => .ended bytes

/-- The framing of the levels of a reception, start sequence included; `none` where they do not begin with one (R120). -/
def frame (levels : List Bool) : Option Framing :=
  if startSequence.isPrefixOf levels then some ((levels.drop 8).foldl Framing.bit (.due 0 [])) else none

/-- A reception's bytes are framed if there are at least 8 and 8 more than the length field says (R120). -/
def framed (bytes : List Byte) : Bool :=
  decide (8 ≤ bytes.length ∧ bytes.length = 8 + (bytes.getD 5 0#8).toNat)

/-- The two check bytes equal the CRC-16 of every byte before them (R121). -/
def checkGood (bytes : List Byte) : Bool :=
  let n := bytes.length - 2
  decide (crc16 (bytes.take n) = (bytes.getD n 0#8) ++ (bytes.getD (n + 1) 0#8))

/-! ## Requests -/

/-- The fields of a request, read from its forty bytes (R204). -/
structure Request where
  code : Byte
  tag : Byte
  objectId : BitVec 16
  length : Byte
  first : Byte
  second : Byte
  value : List Byte
  deriving DecidableEq, Repr

/-- A request's fields in an area of the port window (R204). -/
def Request.ofArea (m : Memory) : Request where
  code := m.read 0
  tag := m.read 1
  objectId := m.read16 2
  length := m.read 4
  first := m.read 5
  second := m.read 6
  value := m.readAll 8 32

/-- The value bytes a request carries: as many as its length says. -/
def Request.bytes (r : Request) : List Byte := r.value.take r.length.toNat

/-- The fourteen requests (R204). -/
inductive RequestCode where
  | read | write | claim | release | query | peer | status | counters | takeUnlisted | attend | join | leave | restart | load
  deriving DecidableEq, Repr

/-- The code of a request (R204). -/
def RequestCode.byte : RequestCode → Byte
  | .read => 1#8
  | .write => 2#8
  | .claim => 3#8
  | .release => 4#8
  | .query => 5#8
  | .peer => 6#8
  | .status => 7#8
  | .counters => 8#8
  | .takeUnlisted => 9#8
  | .attend => 10#8
  | .join => 11#8
  | .leave => 12#8
  | .restart => 13#8
  | .load => 14#8

/-- LP's checks: one of the fourteen codes, a RESTART scope of LINE or FULL, and a tag for CLAIM and RELEASE (R176). -/
def Request.lpGood (r : Request) : Bool :=
  decide (1 ≤ r.code.toNat ∧ r.code.toNat ≤ 14)
    && (decide (r.code ≠ RequestCode.restart.byte) || decide (r.first = 1#8) || decide (r.first = 2#8))
    && ((decide (r.code ≠ RequestCode.claim.byte) && decide (r.code ≠ RequestCode.release.byte)) || decide (r.tag ≠ 0#8))

/-- LOAD's FINISH flag: bit 0 of the first parameter (R204). -/
def Request.finish (r : Request) : Bool := r.first.getLsbD 0

/-- The station states in which a request is accepted (R177). RESTART stands here with scope LINE; scope FULL is accepted in every state. -/
def RequestCode.acceptedIn : RequestCode → StationState → Bool
  | .read, st | .peer, st | .takeUnlisted, st | .restart, st => decide (st ≠ .loading) && decide (st ≠ .unconfigured)
  | .write, st | .claim, st | .release, st | .query, st => decide (st = .active)
  | .join, st => decide (st = .detached)
  | .leave, st => decide (st = .listening) || decide (st = .active) || decide (st = .muted)
  | .load, st => decide (st = .unconfigured)
  | .status, _ | .counters, _ | .attend, _ => true

/-! ## Codes shown to the processor -/

/-- The value of a response status (R204). -/
def Status.code : Status → Byte
  | .ok => 0#8
  | .accepted => 1#8
  | .noObject => 2#8
  | .notOwner => 3#8
  | .notEligible => 4#8
  | .already => 5#8
  | .length => 6#8
  | .wrongState => 7#8
  | .badRequest => 8#8
  | .empty => 9#8
  | .imageFault => 10#8

/-- The code of a station state (R204, STATUS). -/
def StationState.code : StationState → BitVec 4
  | .loading => 0#4
  | .unconfigured => 1#4
  | .detached => 2#4
  | .listening => 3#4
  | .active => 4#4
  | .leaving => 5#4
  | .muted => 6#4
  | .faulted => 7#4

/-- The code of a STATION cause (R205). -/
def StationCause.code : StationCause → BitVec 4
  | .reset => 0#4
  | .restartFull => 1#4
  | .imageFault => 2#4
  | .imageLoaded => 3#4
  | .join => 4#4
  | .listenDone => 5#4
  | .leave => 6#4
  | .leaveDone => 7#4
  | .lineFailure => 8#4
  | .muteDone => 9#4
  | .duplicate => 10#4
  | .restartLine => 11#4

/-- The number of a fault code (R203). -/
def FaultCode.code : FaultCode → Byte
  | .none => 0#8
  | .noMemory => 1#8
  | .badFormat => 2#8
  | .badCount => 3#8
  | .badCheck => 4#8
  | .badStation => 5#8
  | .badRate => 6#8
  | .badTiming => 7#8
  | .badEntry => 8#8
  | .duplicateObject => 9#8

/-- The code of an ownership state in a READ response (R204). -/
def Ownership.code : Ownership → BitVec 4
  | .consumer .unknown => 0#4
  | .consumer (.foreign _ _ _) => 1#4
  | .consumer (.orphaned _ _) => 2#4
  | .claiming _ _ => 3#4
  | .own => 4#4
  | .yielding => 5#4

/-- The code of a freshness state in a READ response (R204). -/
def Freshness.code : Freshness → BitVec 2
  | .never => 0#2
  | .fresh => 1#2
  | .stale => 2#2

/-- The kind and detail bytes of an event record (R205). -/
def EventKind.codes : EventKind → Byte × Byte
  | .none => (0#8, 0#8)
  | .claimOutcome .won => (1#8, 1#8)
  | .claimOutcome .lost => (1#8, 2#8)
  | .claimOutcome .cancelled => (1#8, 3#8)
  | .claimOutcome .failed => (1#8, 4#8)
  | .releaseOutcome .released => (2#8, 1#8)
  | .releaseOutcome .unannounced => (2#8, 2#8)
  | .ownershipLost .conflict => (3#8, 1#8)
  | .ownershipLost .handback => (3#8, 2#8)
  | .ownershipLost .muted => (3#8, 3#8)
  | .ownershipLost .restart => (3#8, 4#8)
  | .ownershipLost .fault => (3#8, 5#8)
  | .ownerChanged .newOwner => (4#8, 1#8)
  | .ownerChanged .orphaned => (4#8, 2#8)
  | .arrival => (5#8, 0#8)
  | .stale => (6#8, 0#8)
  | .fresh => (7#8, 0#8)
  | .valueRefused => (8#8, 0#8)
  | .unlisted => (9#8, 0#8)
  | .peer .joined => (10#8, 1#8)
  | .peer .absent => (10#8, 2#8)
  | .peer .restarted => (10#8, 3#8)
  | .peer .leaving => (10#8, 4#8)
  | .backlog .entered => (11#8, 1#8)
  | .backlog .cleared => (11#8, 2#8)
  | .line .muted => (12#8, 1#8)
  | .line .recovered => (12#8, 2#8)
  | .station st cause => (13#8, st.code ++ cause.code)
  | .harvest => (14#8, 0#8)
  | .lost count => (15#8, count)

/-- The eight bytes of an event record in the event window (R205). -/
def EventRecord.bytes (r : EventRecord) : List Byte :=
  let field : BitVec 16 := (if r.version.isNone then 0x8000#16 else 0#16) ||| r.id.setWidth 16
  [r.kind.codes.1, r.kind.codes.2, highByte field, lowByte field, r.tag, r.version.getD 0#8, highByte r.time, lowByte r.time]

/-- The byte of the response area at an offset (R204). -/
def Response.byte (r : Response) (k : Nat) : Byte :=
  ([r.code, r.tag, r.status.code, r.version, highByte r.objectId, lowByte r.objectId, r.station, r.length] ++ r.value).getD k 0#8

/-- A response that carries the echo and a status alone (R178). -/
def Request.answer (r : Request) (st : Status) : Response := ⟨r.code, r.tag, st, 0#8, 0#16, 0#8, 0#8, []⟩

/-- A 12-bit epoch in a 16-bit field, bit 15 set when absent (R204). Bits 14..0 of an absent epoch, of which R204 says nothing, show 0:
the model's choice (assumption 35). -/
def epochField (epoch : Option (BitVec 12)) : BitVec 16 :=
  match epoch with
  | none => 0x8000#16
  | some e => e.setWidth 16

/-! ## Signs of an entry -/

/-- The freshness limit: stale factor times refresh period (R2). -/
def Decl.limit (d : Decl) : Nat := d.staleFactor * d.refresh

/-- A slot that holds no telegram. -/
def Slot.isNone : Slot → Bool
  | .none => true
  | .waiting _ | .owed _ | .queued _ | .inFlight _ _ => false

/-- An IN_FLIGHT telegram against which no claim starts: every one but a CLAIM with follow-up CANCEL (R29). -/
def Slot.blocksClaim : Slot → Bool
  | .inFlight o f => !(decide (o.kind = .claim) && decide (f = .cancel))
  | .none | .waiting _ | .owed _ | .queued _ => false

/-- A consumer state (R27). -/
def Ownership.isConsumer : Ownership → Bool
  | .consumer _ => true
  | .claiming _ _ | .own | .yielding => false

/-- A view that records S as FOREIGN owner. -/
def View.ownedBy (v : View) (station : Byte) : Bool :=
  match v with
  | .foreign o _ _ => decide (o = station)
  | .unknown | .orphaned _ _ => false

/-- The view orphaned: FOREIGN becomes ORPHANED with the same station and rank (R50). -/
def View.orphan : View → View
  | .foreign o r _ => .orphaned o r
  | .unknown => .unknown
  | .orphaned o r => .orphaned o r

end Sys2Proof.Machine
end

