-- ==== Sys2Proof/Machine/Flags.lean ====
section
/-! DEFINITION. Conditions and signs computed from the state: version order, BACKLOG thresholds, counters, attention, output pins, port reads. -/

namespace Sys2Proof.Machine

/-! ## The version order -/

/-- How an offered version stands to the held one (R9). -/
inductive VersionOrder where
  | newer | same | older
  deriving DecidableEq, Repr

/-- The version order: the difference modulo 256, 1..127 newer, 0 same, 128..255 older (R9). -/
def versionOrder (offered held : Byte) : VersionOrder :=
  let d := (offered - held).toNat
  if d = 0 then .same else if d ≤ 127 then .newer else .older

/-- The version a win produces: the held version plus 1 modulo 256, or 0 if none was held (R10). -/
def nextVersion : Option Byte → Byte
  | none => 0#8
  | some v => v + 1#8

/-! ## BACKLOG -/

/-- The crossing that a ROUTINE occupancy makes, if any (R138). -/
def backlogCrossing (backlog : Bool) (occupancy : Nat) : Option BacklogDetail :=
  if !backlog && decide (Config.backlogEnter ≤ occupancy) then some .entered
  else if backlog && decide (occupancy ≤ Config.backlogClear) then some .cleared
  else none

/-! ## Counters -/

/-- A counter's value. -/
def Counters.get (c : Counters) : Counter → BitVec 16
  | .txSent => c.txSent
  | .rxGood => c.rxGood
  | .rxBad => c.rxBad
  | .collisions => c.collisions
  | .abandoned => c.abandoned
  | .shed => c.shed
  | .oldVersion => c.oldVersion
  | .refused => c.refused

/-- One counter set to a value. -/
def Counters.set (c : Counters) (k : Counter) (v : BitVec 16) : Counters :=
  match k with
  | .txSent => { c with txSent := v }
  | .rxGood => { c with rxGood := v }
  | .rxBad => { c with rxBad := v }
  | .collisions => { c with collisions := v }
  | .abandoned => { c with abandoned := v }
  | .shed => { c with shed := v }
  | .oldVersion => { c with oldVersion := v }
  | .refused => { c with refused := v }

/-- The eight counters in the order a COUNTERS response shows them, high byte first (R204). -/
def Counters.bytes (c : Counters) : List Byte :=
  [highByte c.txSent, lowByte c.txSent, highByte c.rxGood, lowByte c.rxGood, highByte c.rxBad, lowByte c.rxBad,
   highByte c.collisions, lowByte c.collisions, highByte c.abandoned, lowByte c.abandoned, highByte c.shed, lowByte c.shed,
   highByte c.oldVersion, lowByte c.oldVersion, highByte c.refused, lowByte c.refused]

/-! ## Attention -/

/-- The category of an event kind (R194); NONE has none. -/
def EventKind.category : EventKind → Option Category
  | .none => Option.none
  | .claimOutcome _ | .releaseOutcome _ | .ownershipLost _ | .ownerChanged _ => some .ownership
  | .arrival | .stale | .fresh | .valueRefused | .unlisted => some .data
  | .peer _ => some .peers
  | .backlog _ | .line _ => some .line
  | .station _ _ | .harvest | .lost _ => some .station

/-- The position of a category in the category mask (R204, ATTEND). -/
def Category.position : Category → Nat
  | .ownership => 0
  | .data => 1
  | .peers => 2
  | .line => 3
  | .station => 4
  | .port => 5

/-- A category enabled in a mask. -/
def enabled (mask : BitVec 6) (c : Category) : Bool := mask.getLsbD c.position

/-- The port is DONE. -/
def State.portDone (s : State) : Bool :=
  match s.lp.port with
  | .done _ => true
  | .ready | .working _ => false

/-- ATN_N is active (low): an enabled category stands in the queue, or the port is DONE with PORT enabled; inactive while RST_N is low (R198). -/
def State.attention (s : State) : Bool :=
  !s.rstLow && (s.eu.queue.any (fun r => match r.kind.category with
      | none => false
      | some c => enabled s.eu.mask c)
    || (s.portDone && enabled s.eu.mask .port))

/-! ## Line pins -/

/-- The receiver is on in LISTENING, ACTIVE, LEAVING and MUTED (R123). -/
def StationState.receiverOn : StationState → Bool
  | .listening | .active | .leaving | .muted => true
  | .loading | .unconfigured | .detached | .faulted => false

/-- The transmitter is on in LISTENING, ACTIVE and LEAVING (R123). -/
def StationState.transmitterOn : StationState → Bool
  | .listening | .active | .leaving => true
  | .loading | .unconfigured | .detached | .muted | .faulted => false

/-- TXEN is driven: an attempt or a jam is on the line (R111). -/
def TxState.driving : TxState → Bool
  | .transmitting _ | .jamming _ => true
  | .off | .idle | .retryWait _ _ | .halted => false

/-- The TXEN output; inactive while RST_N is low (R111, R145). -/
def State.txen (s : State) : Bool := !s.rstLow && s.lc.tx.driving

/-- The TXD output in bit time `bit` of the attempt or jam on the line; 1 while TXEN is inactive (R110, R111, R117). -/
def State.txd (s : State) (bit : Nat) : Bool :=
  if s.rstLow then true
  else match s.lc.tx with
    | .transmitting h => h.telegram.levels.getD bit true
    | .jamming _ => false
    | .off | .idle | .retryWait _ _ | .halted => true

/-- The class gap of a telegram in slots (R113). -/
def classGap : TxClass → Nat
  | .urgent => 0
  | .routine => Config.routineGapSlots

/-! ## Port reads -/

/-- The port-state byte: bits 1..0 port state, bit 7 submit-ignored flag (R204); bits 6..2, which R204 gives no meaning, show 0 (assumption 33). -/
def Lp.stateByte (p : Lp) : Byte :=
  (match p.port with
    | .ready => 0#8
    | .working _ => 1#8
    | .done _ => 2#8) ||| (if p.submitIgnored then 0x80#8 else 0#8)

/-- The byte at a window address (R204). Byte 7 of the request area, which the part does not read, is shown as written, as R172 gives for the
whole area (assumption 32). -/
def State.window (s : State) (addr : BitVec 6) : Byte :=
  let a := addr.toNat
  if a < 40 then
    match s.lp.port with
    | .done r => r.byte a
    | .ready | .working _ => s.lp.request.read a
  else if a < 48 then s.eu.window.bytes.getD (a - 40) 0#8
  else if a = 48 then s.lp.stateByte
  else 0#8

/-- What a port read drives on D7..D0: the window byte, or nothing while RST_N is low (R171). A read changes no state. -/
def State.portRead (s : State) (addr : BitVec 6) : Option Byte :=
  if s.rstLow then none else some (s.window addr)

end Sys2Proof.Machine
end

