-- ==== Sys2Proof/Machine/Ops.lean ====
section
/-! DEFINITION. The shared operations over the state: taking an event, event records and counters, entries, queues and owed lists,
the presence record, line switches, the flush, the peer table, the entries at station-level events, full restart, entry to LISTENING and DETACHED, the port's completion. -/

namespace Sys2Proof.Machine

/-! ## Taking an event -/

/-- While RST_N is low the part takes no event (R145, R171); otherwise the event has its effect. -/
def State.taken (s : State) (f : State → State) : Out := .next (if s.rstLow then s else f s)

/-- A timer that runs and has no time left. A stopped timer does not expire (R7). -/
def Timer.due (t : Timer) : Bool := decide (t = some 0)

/-- One millisecond off a running timer; a due timer stays due until its expiry is taken. -/
def Timer.tick (t : Timer) : Timer := t.map (· - 1)

/-! ## The own station -/

/-- The own station number, 0 before installation (R144). -/
def State.ownNumber (s : State) : Byte := s.sc.number.getD 0#8

/-- The own station number in the object id or station field of a record. -/
def State.ownId (s : State) : BitVec 12 := s.ownNumber.setWidth 12

/-- The own presence period in ms. -/
def State.ownPeriod (s : State) : Nat := s.sc.period.getD 0

/-- The station's claim window in ms; 0 where OD holds none, before installation (assumption 30). -/
def State.claimWindow (s : State) : Nat := s.od.claimWindow.getD 0

/-! ## Event records and counters -/

/-- Post a record: stamped and appended, or counted lost when the queue is full (R195). -/
def State.post (s : State) (kind : EventKind) (id : BitVec 12) (tag : Byte) (version : Option Byte) : State :=
  if s.eu.queue.length < Config.eventCapacity then
    { s with eu := { s.eu with queue := s.eu.queue ++ [⟨kind, id, tag, version, s.eu.clock⟩] } }
  else
    { s with eu := { s.eu with lost := if s.eu.lost = 255#8 then 255#8 else s.eu.lost + 1#8 } }

/-- Post a record that carries the own station number and version 0. -/
def State.postStation (s : State) (kind : EventKind) (tag : Byte) : State := s.post kind s.ownId tag (some 0#8)

/-- Increment a counter, saturating; at exactly 49152 with the flag armed, clear the flag and post HARVEST (R199). -/
def State.bump (s : State) (c : Counter) : State :=
  let old := s.eu.counters.get c
  if old = 65535#16 then s
  else
    let s1 := { s with eu := { s.eu with counters := s.eu.counters.set c (old + 1#16) } }
    if old + 1#16 = Config.harvestMark ∧ s.eu.harvestArmed = true then
      { s1 with eu := { s1.eu with harvestArmed := false } }.postStation .harvest 0#8
    else s1

/-- Pop the event queue into the event window, with the LOST record due (R196, R197). -/
def State.popEvent (s : State) : State :=
  match s.eu.queue with
  | [] => { s with eu := { s.eu with window := EventRecord.empty } }
  | r :: rest =>
    if s.eu.lost = 0#8 then { s with eu := { s.eu with queue := rest, window := r } }
    else { s with eu := { s.eu with
            queue := rest ++ [⟨.lost s.eu.lost, s.ownId, 0#8, some 0#8, s.eu.clock⟩], window := r, lost := 0#8 } }

/-! ## Entries -/

/-- The entry of an index 1..n (R1). -/
def State.entry? (s : State) : Nat → Option Entry
  | 0 => none
  | k + 1 => s.od.entries[k]?

/-- Change the entry of an index; no effect where there is none. -/
def State.modify (s : State) (i : Nat) (f : Entry → Entry) : State :=
  match i with
  | 0 => s
  | k + 1 => { s with od := { s.od with entries := s.od.entries.modify k f } }

/-- Act on the entry of an index as it stands; no effect where there is none. -/
def State.withEntry (s : State) (i : Nat) (k : Entry → State) : State :=
  match s.entry? i with
  | none => s
  | some e => k e

/-- The index of the entry that carries an object id (R1). -/
def State.find (s : State) (id : Nat) : Option Nat :=
  (s.od.entries.findIdx? fun e => decide (e.decl.objectId.toNat = id)).map (· + 1)

/-- Take the entries in ascending index order (R1). -/
def State.eachEntry (s : State) (f : State → Nat → State) : State :=
  (List.range' 1 s.od.entries.length).foldl f s

/-- The own key of an entry (R8). -/
def State.ownKey (s : State) (e : Entry) : Nat := key e.decl.rank s.ownNumber

/-- Post a record of an entry with the version it holds after the event (R28). -/
def State.postEntry (s : State) (i : Nat) (kind : EventKind) (tag : Byte) : State :=
  s.withEntry i fun e => s.post kind e.decl.objectId tag e.version

/-- Post several records of an entry in order. -/
def State.postAll (s : State) (i : Nat) (records : List (EventKind × Byte)) : State :=
  records.foldl (fun s r => s.postEntry i r.1 r.2) s

/-- Set the slot of an entry. -/
def State.setSlot (s : State) (i : Nat) (slot : Slot) : State := s.modify i fun e => { e with slot := slot }

/-- The tag an outcome record carries: the pending tag, or 0 for an automatic matter (R28). -/
def Entry.tag (e : Entry) : Byte := e.pendingTag.getD 0#8

/-- The freshness deadline after a change of owner: restarted at the full limit if the entry is FRESH, otherwise as it stands (R13, R75). -/
def Entry.restartedDeadline (e : Entry) : Timer :=
  if e.freshness = .fresh then some e.decl.limit else e.freshTimer

/-! ## Queues and owed lists -/

/-- Compare the ROUTINE occupancy with the thresholds and post the crossing made (R138). -/
def State.judgeBacklog (s : State) : State :=
  match backlogCrossing s.ts.backlog s.ts.routine.length with
  | none => s
  | some .entered => { s with ts := { s.ts with backlog := true } }.postStation (.backlog .entered) 0#8
  | some .cleared => { s with ts := { s.ts with backlog := false } }.postStation (.backlog .cleared) 0#8

/-- A reference joins the ROUTINE tail (R131, R138). -/
def State.joinRoutine (s : State) (r : Ref) : State :=
  { s with ts := { s.ts with routine := s.ts.routine ++ [r] } }.judgeBacklog

/-- Append a telegram: at the tail of its class queue, or of the class's owed list if the queue is full (R133). -/
def State.append (s : State) (i : Nat) (o : Outbound) : State :=
  match o.cls with
  | .urgent =>
    if s.ts.urgent.length < Config.urgentCapacity then
      { s.setSlot i (.queued o) with ts := { s.ts with urgent := s.ts.urgent ++ [i] } }
    else
      let s1 := s.setSlot i (.owed o)
      { s1 with od := { s1.od with urgentOwed := s1.od.urgentOwed ++ [i] } }
  | .routine =>
    if s.ts.routine.length < Config.routineCapacity then
      (s.setSlot i (.queued o)).joinRoutine (.entry i)
    else
      let s1 := s.setSlot i (.owed o)
      { s1 with od := { s1.od with routineOwed := s1.od.routineOwed ++ [i] } }

/-- An owed slot becomes QUEUED when its reference takes a place (R135). -/
def Entry.promoted (e : Entry) : Entry :=
  match e.slot with
  | .owed o => { e with slot := .queued o }
  | .none | .waiting _ | .queued _ | .inFlight _ _ => e

/-- Offer a freed URGENT place to the head of the URGENT-owed list (R135). -/
def State.offerUrgent (s : State) : State :=
  match s.od.urgentOwed with
  | [] => s
  | i :: rest =>
    if s.ts.urgent.length < Config.urgentCapacity then
      let s1 := { s with od := { s.od with urgentOwed := rest }, ts := { s.ts with urgent := s.ts.urgent ++ [i] } }
      s1.modify i Entry.promoted
    else s

/-- Offer a freed ROUTINE place to the owed PRESENCE first, then to the head of the ROUTINE-owed list (R135). -/
def State.offerRoutine (s : State) : State :=
  if s.ts.routine.length < Config.routineCapacity then
    match s.sc.presence with
    | .owed st => { s with sc := { s.sc with presence := .queued st } }.joinRoutine .presence
    | .none | .queued _ | .inFlight _ _ =>
      match s.od.routineOwed with
      | [] => s
      | i :: rest =>
        ({ s with od := { s.od with routineOwed := rest } }.modify i Entry.promoted).joinRoutine (.entry i)
  else s

/-- A ROUTINE queue that has lost a reference: BACKLOG is judged, then the place is offered (R138, R135). -/
def State.freedRoutine (s : State) : State := s.judgeBacklog.offerRoutine

/-- Withdraw a WAITING, OWED or QUEUED telegram; a place freed in a queue is offered (R134). -/
def State.withdraw (s : State) (i : Nat) : State :=
  s.withEntry i fun e =>
    match e.slot with
    | .none | .inFlight _ _ => s
    | .waiting _ => s.setSlot i .none
    | .owed _ =>
      let s1 := s.setSlot i .none
      { s1 with od := { s1.od with urgentOwed := s1.od.urgentOwed.erase i, routineOwed := s1.od.routineOwed.erase i } }
    | .queued o =>
      let s1 := s.setSlot i .none
      match o.cls with
      | .urgent => { s1 with ts := { s1.ts with urgent := s1.ts.urgent.erase i } }.offerUrgent
      | .routine => { s1 with ts := { s1.ts with routine := s1.ts.routine.erase (.entry i) } }.freedRoutine

/-! ## The presence record -/

/-- Request a PRESENCE with a status (R85). -/
def State.requestPresence (s : State) (st : PresenceStatus) : State :=
  match s.sc.presence with
  | .none =>
    if s.ts.routine.length < Config.routineCapacity then
      { s with sc := { s.sc with presence := .queued st } }.joinRoutine .presence
    else { s with sc := { s.sc with presence := .owed st } }
  | .queued _ => { s with sc := { s.sc with presence := .queued st } }
  | .owed _ => { s with sc := { s.sc with presence := .owed st } }
  | .inFlight a _ => { s with sc := { s.sc with presence := .inFlight a (some st) } }

/-! ## Line switches -/

/-- The transmitter is turned off: a telegram held is dropped without outcome, the consecutive-abandon count becomes 0 (R124). -/
def State.transmitterOff (s : State) : State := { s with lc := { s.lc with tx := .off, abandons := 0 } }

/-- The receiver is turned off: no view, a reception in progress is discarded uncounted, and nothing received
and not yet taken reaches TF, PM, OD or the ring any more (R124, R26). -/
def State.receiverOff (s : State) : State :=
  { s with
    lc := { s.lc with view := none, receiving := false }
    paths := { s.paths with toTf := [], toPm := [], toOd := [], toRing := [], notices := [] } }

/-! ## The flush -/

/-- LC drops any telegram it holds without an outcome; its transmit side stays OFF or HALTED, or becomes IDLE (R125). -/
def TxState.dropped : TxState → TxState
  | .off => .off
  | .halted => .halted
  | .idle | .transmitting _ | .jamming _ | .retryWait _ _ => .idle

/-- The flush of the outbound system: slots, follow-ups, queues, owed lists, presence record, LC's telegram and BACKLOG,
with no outcome and no event. Outcome reports not yet taken are dropped with it (R140). -/
def State.flush (s : State) : State :=
  { s with
    od := { s.od with entries := s.od.entries.map (fun e => { e with slot := .none }), urgentOwed := [], routineOwed := [] }
    ts := { urgent := [], routine := [], backlog := false }
    sc := { s.sc with presence := .none }
    lc := { s.lc with tx := s.lc.tx.dropped }
    paths := { s.paths with reports := [], presenceReport := none } }

/-! ## The peer table -/

/-- The row of a station number 1..31 (R77). -/
def State.row? (s : State) : Nat → Option PeerRow
  | 0 => none
  | k + 1 => s.pm.rows[k]?

/-- Set the row of a station number. -/
def State.setRow (s : State) (n : Nat) (r : PeerRow) : State :=
  match n with
  | 0 => s
  | k + 1 => { s with pm := { s.pm with rows := s.pm.rows.set k r } }

/-- A cleared row with the given own period (R92). -/
def PeerRow.cleared (period : Nat) : PeerRow := ⟨false, none, period, none⟩

/-- Clear the peer table, with no event and no notice (R92). -/
def State.clearPeers (s : State) : State :=
  { s with pm := { s.pm with rows := s.pm.rows.map fun _ => PeerRow.cleared s.ownPeriod } }

/-- Give OD a notice for a station (R82). -/
def State.giveNotice (s : State) (station : Byte) (cause : NoticeCause) : State :=
  { s with paths := { s.paths with notices := s.paths.notices ++ [⟨station, cause⟩] } }

/-! ## The entries at station-level events -/

/-- FRESH becomes STALE; NEVER and STALE stay (R24, R26). -/
def Freshness.lapsed : Freshness → Freshness
  | .never => .never
  | .fresh => .stale
  | .stale => .stale

/-- Stop every timer of an entry. -/
def Entry.stopTimers (e : Entry) : Entry :=
  { e with freshTimer := none, refreshTimer := none, spacingTimer := none, windowTimer := none, takeoverTimer := none }

/-- An entry after a LINE restart: UNKNOWN, FRESH to STALE, timers stopped, tag and slot clear (R24). -/
def Entry.lineRestarted (e : Entry) : Entry :=
  { e.stopTimers with ownership := .consumer .unknown, freshness := e.freshness.lapsed, pendingTag := none, slot := .none }

/-- RELEASE_OUTCOME UNANNOUNCED, if a tag is pending (R24, R25). -/
def Entry.unannounced (e : Entry) : List (EventKind × Byte) :=
  match e.pendingTag with
  | none => []
  | some t => [(.releaseOutcome .unannounced, t)]

/-- The LINE restart at one entry, with its records (R24). -/
def State.lineRestartEntry (s : State) (i : Nat) : State :=
  s.withEntry i fun e =>
    (s.modify i Entry.lineRestarted).postAll i
      (match e.ownership with
        | .own => [(.ownershipLost .restart, 0#8)]
        | .yielding => (.ownershipLost .restart, 0#8) :: e.unannounced
        | .claiming _ _ => [(.claimOutcome .cancelled, e.tag)]
        | .consumer _ => [])

/-- The entry back in its prior state, with the version, value and freshness it holds now (R6). -/
def Entry.returned (e : Entry) (prior : View) : Entry :=
  { e with ownership := .consumer prior, windowTimer := none, pendingTag := none }

/-- The OWNER_CHANGED record that a return to a prior state changed during the claim posts (R35, R37). -/
def ownerChangedRecord (prior : View) (changed : Bool) : List (EventKind × Byte) :=
  if changed then
    match prior with
    | .unknown => []
    | .foreign _ _ _ => [(.ownerChanged .newOwner, 0#8)]
    | .orphaned _ _ => [(.ownerChanged .orphaned, 0#8)]
  else []

/-- A claim that ends without success returns to the prior state and posts CLAIM_OUTCOME (R6, R28, R35, R37). -/
def State.returnToPrior (s : State) (i : Nat) (outcome : ClaimOutcome) : State :=
  s.withEntry i fun e =>
    match e.ownership with
    | .claiming prior changed =>
      (s.modify i fun e => e.returned prior).postAll i
        ((.claimOutcome outcome, e.tag) :: ownerChangedRecord prior changed)
    | .consumer _ | .own | .yielding => s

/-- Stop the refresh, spacing, claim-window and takeover timers of an entry (R25). -/
def Entry.stopOwnTimers (e : Entry) : Entry :=
  { e with refreshTimer := none, spacingTimer := none, windowTimer := none, takeoverTimer := none }

/-- An OWN or YIELDING entry given up: UNKNOWN, still FRESH, its freshness deadline started (R25, R44). -/
def Entry.givenUp (e : Entry) : Entry :=
  { e.stopOwnTimers with ownership := .consumer .unknown, freshTimer := some e.decl.limit, pendingTag := none }

/-- The mute or the fault at one entry, with its records (R25). -/
def State.loseEntry (s : State) (cause : LossCause) (i : Nat) : State :=
  s.withEntry i fun e =>
    match e.ownership with
    | .own => (s.modify i Entry.givenUp).postAll i [(.ownershipLost cause, 0#8)]
    | .yielding => (s.modify i Entry.givenUp).postAll i ((.ownershipLost cause, 0#8) :: e.unannounced)
    | .claiming _ _ => (s.modify i Entry.stopOwnTimers).returnToPrior i .failed
    | .consumer _ => s.modify i Entry.stopOwnTimers

/-- An entry on entry to DETACHED: FRESH to STALE, timers stopped (R26). -/
def Entry.detached (e : Entry) : Entry := { e.stopTimers with freshness := e.freshness.lapsed }

/-- The entries on entry to DETACHED (R26). -/
def State.detachEntries (s : State) : State :=
  { s with od := { s.od with entries := s.od.entries.map Entry.detached } }

/-! ## Station-level operations -/

/-- Set the station state and post its STATION record (R144). -/
def State.enterState (s : State) (st : StationState) (cause : StationCause) (tag : Byte) : State :=
  { s with sc := { s.sc with state := st } }.postStation (.station st cause) tag

/-- A full restart (R145): every block at its full-restart values and STATION (LOADING, cause) queued.
The RST_N pin, the free-running sequence and the commands waiting outside are no part of it. -/
def State.fullRestart (s : State) (cause : StationCause) : State :=
  { State.reset with
    rstLow := s.rstLow
    draws := s.draws
    pending := s.pending
    eu := { State.reset.eu with queue := [⟨.station .loading cause, 0#12, 0#8, some 0#8, 0#16⟩] } }

/-- The epoch drawn by a free value: any epoch other than the one held before (R84). -/
def drawEpoch (old : Option (BitVec 12)) (free : Nat) : BitVec 12 :=
  match old with
  | none => BitVec.ofNat 12 free
  | some e => e + 1#12 + BitVec.ofNat 12 (free % 4095)

/-- Take one value from the free-running sequence. -/
def State.drawn (s : State) : Nat := Config.freeSequence s.draws

/-- Entry to LISTENING after its STATION record: new epoch, receiver and transmitter on, JOINING PRESENCE, join-listen timer (R148, R126). -/
def State.beginListening (s : State) : State :=
  let s1 := { s with
    draws := s.draws + 1
    lc := { s.lc with tx := .idle, view := some .busy }
    sc := { s.sc with epoch := some (drawEpoch s.sc.epoch s.drawn), joinTimer := some (s.sc.joinListen.getD 0) } }
  s1.requestPresence .joining

/-- Withdraw or drop the PRESENCE on entry to DETACHED from LISTENING: its reference leaves the ROUTINE queue, its outcome is void (R89, R141). -/
def State.dropPresence (s : State) : State :=
  let s1 := { s with
    sc := { s.sc with presence := .none }
    paths := { s.paths with presenceReport := none } }
  match s.sc.presence with
  | .queued _ => { s1 with ts := { s1.ts with routine := s1.ts.routine.erase .presence } }.freedRoutine
  | .none | .owed _ | .inFlight _ _ => s1

/-- Transmitter and receiver off, peer table cleared, entries detached: what entry to DETACHED does after its STATION record (R153, R154). -/
def State.goOffLine (s : State) : State := s.transmitterOff.receiverOff.clearPeers.detachEntries

/-! ## The slots-clear notice -/

/-- Every slot is NONE. -/
def State.slotsClear (s : State) : Bool := s.od.entries.all fun e => e.slot.isNone

/-- At the end of an event at OD: in LEAVING, the first time every slot is NONE, hand SC the slots-clear notice (R141). -/
def State.judgeSlots (s : State) : State :=
  if s.sc.state = .leaving ∧ s.paths.clearNotice = .notGiven ∧ s.slotsClear = true then
    { s with paths := { s.paths with clearNotice := .handed } }
  else s

/-! ## Requests -/

/-- Run the working request if the port is WORKING on a request of that code (R176); otherwise the event does not occur. -/
def State.withRequest (s : State) (c : RequestCode) (k : Request → State) : State :=
  match s.lp.port with
  | .working area => if (Request.ofArea area).code = c.byte then k (Request.ofArea area) else s
  | .ready | .done _ => s

/-- LP writes the response and the port becomes DONE (R176). The event in which the owning block takes the request includes it:
no event is taken between R176's steps 3 and 4 (assumption 31). -/
def State.complete (s : State) (r : Response) : State := { s with lp := { s.lp with port := .done r } }

/-- Complete a request with the echo and a status alone (R178). -/
def State.answer (s : State) (r : Request) (st : Status) : State := s.complete (r.answer st)

/-- A request in a station state that accepts it; in any other it is answered WRONG_STATE and changes nothing (R177). -/
def State.accepting (s : State) (c : RequestCode) (k : Request → State) : State :=
  s.withRequest c fun r => if c.acceptedIn s.sc.state then k r else s.answer r .wrongState

/-- A request at the entry its object id names; NO_OBJECT where none does (R1, R179). -/
def State.atObject (s : State) (r : Request) (k : Nat → Entry → State) : State :=
  match s.find r.objectId.toNat with
  | none => s.answer r .noObject
  | some i =>
    match s.entry? i with
    | none => s.answer r .noObject
    | some e => k i e

end Sys2Proof.Machine
end

