-- ==== Sys2Proof/Machine/Filter.lean ====
section
/-! DEFINITION. The Telegram Filter and the Peer Monitor: the checks, the duplicate check, routing, capture and what PM hears (R78 to R82, R100 to R107). -/

namespace Sys2Proof.Machine

/-- Step 5 of the checks: the length for the kind, and a named successor in range (R100). -/
def Telegram.lengthFits (t : Telegram) : TelegramKind → Bool
  | .claim | .query | .presence => decide (t.length = 0#8)
  | .yield =>
    decide (t.length = 0#8)
      || (decide (t.length = 1#8) && match t.payload.head? with
          | none => false
          | some n => decide (1 ≤ n.toNat ∧ n.toNat ≤ 31))
  | .publish => true

/-- Step 6 of the checks: status and period of a PRESENCE (R100). -/
def Telegram.presenceFits (t : Telegram) : Bool :=
  decide (1 ≤ t.rank.toNat ∧ t.rank.toNat ≤ 3) && decide (2 ≤ t.version.toNat ∧ t.version.toNat ≤ 200)

/-- The six checks of TF; a telegram that passes them is valid (R100). -/
def Telegram.valid (t : Telegram) : Bool :=
  decide (1 ≤ t.source.toNat ∧ t.source.toNat ≤ 31)
    && match t.kindOf with
      | none => false
      | some kind =>
        (decide (kind = .presence) || (decide (t.objectId ≠ 0#12) && decide (t.objectId ≠ 4095#12)))
          && decide (t.length.toNat ≤ 32)
          && t.lengthFits kind
          && (decide (kind ≠ .presence) || t.presenceFits)

/-- Where a good telegram goes besides PM: to OD if its object is declared, to the ring if it is a PUBLISH the interest mask asks for (R103, R104, R105). -/
def State.route (s : State) (t : Telegram) : State :=
  if t.kindOf = some .presence then s
  else if (s.find t.objectId.toNat).isSome then
    { s with paths := { s.paths with toOd := s.paths.toOd ++ [t] } }
  else if t.kindOf = some .publish ∧ s.tf.interest.getLsbD (interestBit t.objectId) = true then
    { s with paths := { s.paths with toRing := s.paths.toRing ++ [t] } }
  else s

/-- TF takes a delivered telegram (R100, R101, R102). -/
def State.filter (s : State) (t : Telegram) : State :=
  if t.valid = false then s.bump .rxBad
  else if t.source = s.ownNumber then
    { s with paths := { s.paths with duplicates := s.paths.duplicates + 1 } }
  else
    let s1 := s.bump .rxGood
    { s1 with paths := { s1.paths with toPm := s1.paths.toPm ++ [t] } }.route t

/-- DELIVERED_TELEGRAM (R100). -/
def State.deliveredTelegram (s : State) : State :=
  match s.paths.toTf with
  | [] => s
  | t :: rest => { s with paths := { s.paths with toTf := rest } }.filter t

/-- A record joins the ring, displacing the oldest of four (R107). -/
def ringAppend (ring : List Capture) (c : Capture) : List Capture :=
  (if ring.length < Config.ringCapacity then ring else ring.tail) ++ [c]

/-- CAPTURE (R107): the ring takes a PUBLISH, and UNLISTED is posted. -/
def State.capture (s : State) : State :=
  match s.paths.toRing with
  | [] => s
  | t :: rest =>
    let s1 := { s with
      paths := { s.paths with toRing := rest }
      tf := { s.tf with ring := ringAppend s.tf.ring ⟨t.objectId, t.source, t.version, t.payload⟩ } }
    s1.post .unlisted t.objectId 0#8 (some t.version)

/-! ## The Peer Monitor -/

/-- PM takes the oldest heard telegram if it is of the kind the event names, at the row of its source (R102). -/
def State.takeHeard (s : State) (fits : Telegram → Bool) (k : State → PeerRow → Telegram → State) : State :=
  match s.paths.toPm with
  | [] => s
  | t :: rest =>
    if fits t then
      let s1 := { s with paths := { s.paths with toPm := rest } }
      match s1.row? t.source.toNat with
      | none => s1
      | some r => k s1 r t
    else s

/-- Post a PEER record for a station (R78). -/
def State.postPeer (s : State) (d : PeerDetail) (station : Byte) : State :=
  s.post (.peer d) (station.setWidth 12) 0#8 (some 0#8)

/-- A PRESENCE with one of two statuses. -/
def Telegram.isPresence (t : Telegram) : Bool := decide (t.kindOf = some .presence)

/-- HEARD (R78): a PUBLISH, QUERY, CLAIM or YIELD makes the row PRESENT or restarts its silence deadline. -/
def State.heard (s : State) : State :=
  s.takeHeard (fun t => !t.isPresence) fun s r t =>
    let s1 := s.setRow t.source.toNat { r with present := true, deadline := some (3 * r.period) }
    if r.present then s1 else s1.postPeer .joined t.source

/-- The presence period a PRESENCE carries, in ms (R80). -/
def Telegram.period (t : Telegram) : Nat := t.version.toNat * 10

/-- PRESENCE_HEARD (R80): JOINED, the new period, the epoch compared with RESTARTED and its notice, the deadline restarted. -/
def State.presenceHeard (s : State) : State :=
  s.takeHeard (fun t => t.isPresence && decide (t.rank ≠ PresenceStatus.leaving.code)) fun s r t =>
    let s1 := s.setRow t.source.toNat ⟨true, some t.objectId, t.period, some (3 * t.period)⟩
    let s2 := if r.present then s1 else s1.postPeer .joined t.source
    match r.epoch with
    | none => s2
    | some old =>
      if old = t.objectId then s2
      else (s2.postPeer .restarted t.source).giveNotice t.source .restarted

/-- LEAVING_PRESENCE_HEARD (R81): the row ends ABSENT with the telegram's epoch and period, PEER (LEAVING) and the leaving notice. -/
def State.leavingHeard (s : State) : State :=
  s.takeHeard (fun t => t.isPresence && decide (t.rank = PresenceStatus.leaving.code)) fun s _ t =>
    let s1 := s.setRow t.source.toNat ⟨false, some t.objectId, t.period, none⟩
    (s1.postPeer .leaving t.source).giveNotice t.source .leaving

/-! ## The meanings -/

/-- DELIVERED_TELEGRAM (R100). -/
def execDeliveredTelegram (s : State) : Out := s.taken State.deliveredTelegram

/-- CAPTURE (R107). -/
def execCapture (s : State) : Out := s.taken State.capture

/-- HEARD (R78). -/
def execHeard (s : State) : Out := s.taken State.heard

/-- PRESENCE_HEARD (R80). -/
def execPresenceHeard (s : State) : Out := s.taken State.presenceHeard

/-- LEAVING_PRESENCE_HEARD (R81). -/
def execLeavingPresenceHeard (s : State) : Out := s.taken State.leavingHeard

end Sys2Proof.Machine
end

