-- ==== Sys2Proof/Machine/Image.lean ====
section
/-! DEFINITION. The Image Loader: the memory read, LOAD, validation and installation (R161 to R170, R203). -/

namespace Sys2Proof.Machine

/-! ## The image in the staging buffer -/

/-- A role code (R203). -/
def Role.ofCode (c : Byte) : Option Role :=
  if c = 1#8 then some .home else if c = 2#8 then some .spare else if c = 3#8 then some .listen else none

/-- A notify code (R203). -/
def Notify.ofCode (c : BitVec 2) : Option Notify :=
  if c = 0#2 then some .none else if c = 1#2 then some .change else if c = 2#2 then some .every else Option.none

/-- The rank the role fixes (R3). -/
def Role.rank (r : Role) (image : Byte) : BitVec 4 :=
  match r with
  | .home => 0#4
  | .spare => image.setWidth 4
  | .listen => 15#4

/-- The entry count, offset 8 (R203). -/
def Memory.entryCount (m : Memory) : Nat := (m.read 8).toNat

/-- The offset of entry declaration k, k from 1 (R203). -/
def declOffset (k : Nat) : Nat := 17 + 10 * (k - 1)

/-- The format code and the entry count, checked first (R164, R166). -/
def Memory.headerFault (m : Memory) : Option FaultCode :=
  if m.read 0 ≠ 1#8 then some .badFormat
  else if ¬ (1 ≤ m.entryCount ∧ m.entryCount ≤ 64) then some .badCount
  else none

/-- Steps 3 to 6 of the validation (R166). -/
def Memory.stationFault (m : Memory) : Option FaultCode :=
  let n := m.entryCount
  if crc16 (m.readAll 0 (17 + 10 * n)) ≠ m.read16 (17 + 10 * n) then some .badCheck
  else if ¬ (1 ≤ (m.read 1).toNat ∧ (m.read 1).toNat ≤ 31) then some .badStation
  else if 3 < ((m.read 2).extractLsb' 0 4).toNat then some .badRate
  else if ¬ (2 ≤ (m.read 3).toNat ∧ (m.read 3).toNat ≤ 200
      ∧ 5 ≤ (m.read 4).toNat ∧ (m.read 4).toNat ≤ 250
      ∧ 5 ≤ (m.read16 5).toNat ∧ (m.read16 5).toNat ≤ 500
      ∧ 1 ≤ (m.read 7).toNat ∧ (m.read 7).toNat ≤ 100) then some .badTiming
  else none

/-- The declared fields of an entry declaration at an offset; `none` where a field is out of range (R163, R203). -/
def Memory.declAt (m : Memory) (at' : Nat) : Option Decl :=
  match Role.ofCode (m.read (at' + 2)), Notify.ofCode ((m.read (at' + 4)).extractLsb' 2 2) with
  | some role, some notify =>
    let id := (m.read16 at').toNat
    let rank := (m.read (at' + 3)).toNat
    let maxLength := (m.read (at' + 5)).toNat
    let refresh := (m.read16 (at' + 6)).toNat
    let factor := (m.read (at' + 8)).toNat
    let spacing := (m.read (at' + 9)).toNat
    if 1 ≤ id ∧ id ≤ 4094 ∧ (role = .spare → 1 ≤ rank ∧ rank ≤ 14) ∧ 1 ≤ maxLength ∧ maxLength ≤ 32
        ∧ 10 ≤ refresh ∧ refresh ≤ 10000 ∧ 2 ≤ factor ∧ factor ≤ 8 ∧ spacing ≤ 100 then
      some
        { objectId := BitVec.ofNat 12 id
          role := role
          rank := role.rank (m.read (at' + 3))
          takeover := decide (role = .spare) && (m.read (at' + 4)).getLsbD 1
          cls := if (m.read (at' + 4)).getLsbD 0 then .urgent else .routine
          notify := notify
          maxLength := maxLength
          refresh := refresh
          staleFactor := factor
          spacing := 10 * spacing }
    else none
  | _, _ => none

/-- The declarations from index k on, n of them, or the index of the first with a field out of range (R167). -/
def Memory.declsFrom (m : Memory) (k : Nat) : Nat → Except Nat (List Decl)
  | 0 => .ok []
  | n + 1 =>
    match m.declAt (declOffset k) with
    | none => .error k
    | some d =>
      match m.declsFrom (k + 1) n with
      | .error j => .error j
      | .ok ds => .ok (d :: ds)

/-- The lowest index whose object id a declaration of lower index carries; `seen` are the ids before index k (R167). -/
def firstRepeat (seen : List (BitVec 12)) (k : Nat) : List Decl → Option Nat
  | [] => none
  | d :: ds => if seen.contains d.objectId then some k else firstRepeat (d.objectId :: seen) (k + 1) ds

/-- What a validated image holds (R162, R163), periods in ms. -/
structure Image where
  station : Byte
  rate : BitVec 2
  autoJoin : Bool
  period : Nat
  claimWindow : Nat
  joinListen : Nat
  muteInterval : Nat
  interest : BitVec 64
  decls : List Decl
  deriving DecidableEq, Repr

/-- The interest mask: byte k of offsets 9..16 holds bits 8k..8k + 7 (R203). -/
def Memory.interestMask (m : Memory) : BitVec 64 :=
  m.read 16 ++ m.read 15 ++ m.read 14 ++ m.read 13 ++ m.read 12 ++ m.read 11 ++ m.read 10 ++ m.read 9

/-- The image a staging buffer holds, given its declarations (R162, R203). -/
def Memory.image (m : Memory) (decls : List Decl) : Image where
  station := m.read 1
  rate := (m.read 2).extractLsb' 0 2
  autoJoin := (m.read 2).getLsbD 7
  period := 10 * (m.read 3).toNat
  claimWindow := (m.read 4).toNat
  joinListen := 10 * (m.read16 5).toNat
  muteInterval := 100 * (m.read 7).toNat
  interest := m.interestMask
  decls := decls

/-- The validation of the buffer: the first failing check with its index, or the image (R166, R167). -/
def Memory.validate (m : Memory) : Except (FaultCode × Nat) Image :=
  match m.headerFault with
  | some f => .error (f, 0)
  | none =>
    match m.stationFault with
    | some f => .error (f, 0)
    | none =>
      match m.declsFrom 1 m.entryCount with
      | .error k => .error (.badEntry, k)
      | .ok decls =>
        match firstRepeat [] 1 decls with
        | some k => .error (.duplicateObject, k)
        | none => .ok (m.image decls)

/-! ## Outcomes -/

/-- An entry at installation (R23). -/
def Entry.installed (d : Decl) : Entry :=
  { decl := d, ownership := .consumer .unknown, version := none, value := [], freshness := .never, slot := .none,
    pendingTag := none, freshTimer := none, refreshTimer := none, spacingTimer := none, windowTimer := none, takeoverTimer := none }

/-- The installation of an image into OD, TF, PM, LC and SC (R169). -/
def State.install (s : State) (im : Image) : State :=
  { s with
    od := { entries := im.decls.map Entry.installed, urgentOwed := [], routineOwed := [], claimWindow := some im.claimWindow }
    tf := { s.tf with interest := im.interest }
    pm := { s.pm with rows := s.pm.rows.map fun _ => PeerRow.cleared im.period }
    lc := { s.lc with rate := some im.rate }
    sc := { s.sc with number := some im.station, period := some im.period, joinListen := some im.joinListen,
                      muteInterval := some im.muteInterval, autoJoin := some im.autoJoin }
    il := { s.il with phase := .installed, fault := .none, faultIndex := 0 } }

/-- SC takes a validated image: LISTENING or DETACHED by the auto-join option (R145, R146, R169). -/
def State.imageLoaded (s : State) (im : Image) (tag : Byte) : State :=
  if im.autoJoin then ((s.install im).enterState .listening .imageLoaded tag).beginListening
  else (s.install im).enterState .detached .imageLoaded tag

/-- A failed validation: fault code and index set, UNCONFIGURED, STATION (UNCONFIGURED, IMAGE_FAULT) carrying both (R144, R170, R205). -/
def State.imageFailed (s : State) (f : FaultCode) (index : Nat) (tag : Byte) : State :=
  { s with
    il := { s.il with phase := .awaitingLoad, fault := f, faultIndex := index }
    sc := { s.sc with state := .unconfigured } }.post
      (.station .unconfigured .imageFault) (BitVec.ofNat 12 index) tag (some f.code)

/-- The result of validating the staging buffer (R166). -/
def State.validated (s : State) (tag : Byte) : State :=
  match s.il.staging.validate with
  | .ok im => s.imageLoaded im tag
  | .error (f, index) => s.imageFailed f index tag

/-! ## The configuration memory link -/

/-- What one transaction on the link consists of (R164). The memory acknowledges a device address and a memory address byte. -/
inductive LinkSignal where
  /-- A start condition, or a repeated one. -/
  | start
  /-- The device address with its direction bit. -/
  | device (address : BitVec 7) (reading : Bool)
  /-- A byte of the memory address. -/
  | address (byte : Byte)
  /-- A data byte the memory sends, which IL acknowledges or not. -/
  | data (acknowledged : Bool)
  /-- A stop condition. -/
  | stop
  deriving DecidableEq, Repr

/-- The part of the read on the link: the memory address it begins at and its number of bytes; none in the wait after a failed attempt
and outside READING, where the link is released (R164, R165). -/
def Il.part (il : Il) : Option (BitVec 16 × Nat) :=
  match il.phase with
  | .reading .header _ => some (0#16, Config.headerBytes)
  | .reading .remainder _ => some (BitVec.ofNat 16 Config.headerBytes, 10 * il.staging.entryCount + 2)
  | .reading (.wait _) _ | .awaitingLoad | .installed => none

/-- The acknowledgements IL gives the data bytes of a part: every byte but the last (R164). -/
def linkData : Nat → List LinkSignal
  | 0 => []
  | n + 1 => List.replicate n (.data true) ++ [.data false]

/-- The transaction that reads `count` bytes from a memory address on, in the sequence of R164. -/
def linkRead (address : BitVec 16) (count : Nat) : List LinkSignal :=
  [.start, .device Config.linkDevice false, .address (highByte address), .address (lowByte address), .start, .device Config.linkDevice true]
    ++ linkData count ++ [.stop]

/-- The transaction IL runs on the link in a state: that of the part being read; nothing where the link is released, RST_N low included (R164, R165, R171). -/
def State.link (s : State) : List LinkSignal :=
  if s.rstLow then []
  else match s.il.part with
    | none => []
    | some (address, count) => linkRead address count

/-! ## The memory read -/

/-- Write bytes into the staging buffer. -/
def State.stage (s : State) (at' : Nat) (bytes : List Byte) : State :=
  { s with il := { s.il with staging := s.il.staging.writeAll at' bytes } }

/-- Set the step of the read. -/
def State.readPhase (s : State) (p : Phase) : State := { s with il := { s.il with phase := p } }

/-- READ_HEADER (R164): 17 bytes into offsets 0..16, then the format and count checks. -/
def State.headerRead (s : State) (bytes : List Byte) : State :=
  match s.il.phase with
  | .reading .header failed =>
    if bytes.length = Config.headerBytes then
      let s1 := s.stage 0 bytes
      match s1.il.staging.headerFault with
      | some f => s1.imageFailed f 0 0#8
      | none => s1.readPhase (.reading .remainder failed)
    else s
  | .reading .remainder _ | .reading (.wait _) _ | .awaitingLoad | .installed => s

/-- READ_REMAINDER (R164): 10 × n + 2 bytes from offset 17 on, then validation. -/
def State.remainderRead (s : State) (bytes : List Byte) : State :=
  match s.il.phase with
  | .reading .remainder _ =>
    if bytes.length = 10 * s.il.staging.entryCount + 2 then (s.stage Config.headerBytes bytes).validated 0#8 else s
  | .reading .header _ | .reading (.wait _) _ | .awaitingLoad | .installed => s

/-- A failed attempt, with `failed` attempts failed before: the wait, or NO_MEMORY after the third (R165). -/
def State.attemptFailedAfter (s : State) (failed : Nat) : State :=
  if failed + 1 < Config.readAttempts then s.readPhase (.reading (.wait Config.readWait) (failed + 1))
  else s.imageFailed .noMemory 0 0#8

/-- ATTEMPT_FAILED (R165): in part 1 or part 2 of the read. -/
def State.attemptFailed (s : State) : State :=
  match s.il.phase with
  | .reading .header failed => s.attemptFailedAfter failed
  | .reading .remainder failed => s.attemptFailedAfter failed
  | .reading (.wait _) _ | .awaitingLoad | .installed => s

/-- ATTEMPT_WAIT_EXPIRY (R165): the read starts again from part 1. -/
def State.attemptWaitExpired (s : State) : State :=
  match s.il.phase with
  | .reading (.wait 0) failed => s.readPhase (.reading .header failed)
  | .reading (.wait (_ + 1)) _ | .reading .header _ | .reading .remainder _ | .awaitingLoad | .installed => s

/-! ## LOAD -/

/-- The checks of LOAD after its state check, in order; `none` where it is accepted (R168). -/
def Request.loadRefusal (r : Request) : Option Status :=
  if 32 < r.length.toNat then some .length
  else if r.length.toNat = 0 then (if r.finish then none else some .badRequest)
  else if Config.stagingSize < r.objectId.toNat + r.length.toNat then some .length
  else none

/-- LOAD's bytes written at its offset; none for a length of 0 (R168). -/
def State.loadBytes (s : State) (r : Request) : State := s.stage r.objectId.toNat r.bytes

/-- LOAD without FINISH (R168). -/
def State.loadTaken (s : State) (r : Request) : State :=
  match r.loadRefusal with
  | some st => s.answer r st
  | none => (s.loadBytes r).answer r .ok

/-- The response of a FINISH that failed validation (R170, R192). -/
def Request.imageFault (r : Request) (f : FaultCode) (index : Nat) : Response :=
  { r.answer .imageFault with version := f.code, station := BitVec.ofNat 8 index }

/-- LOAD with FINISH: the bytes are written, then the buffer is validated (R168, R169, R170). -/
def State.loadFinishTaken (s : State) (r : Request) : State :=
  match r.loadRefusal with
  | some st => s.answer r st
  | none =>
    let s1 := s.loadBytes r
    match s1.il.staging.validate with
    | .ok im => (s1.imageLoaded im r.tag).answer r .ok
    | .error (f, index) => (s1.imageFailed f index r.tag).complete (r.imageFault f index)

/-! ## The meanings -/

/-- READ_HEADER (R164). -/
def execReadHeader (bytes : List Byte) (s : State) : Out := s.taken fun s => s.headerRead bytes

/-- READ_REMAINDER (R164). -/
def execReadRemainder (bytes : List Byte) (s : State) : Out := s.taken fun s => s.remainderRead bytes

/-- ATTEMPT_FAILED (R165). -/
def execAttemptFailed (s : State) : Out := s.taken State.attemptFailed

/-- ATTEMPT_WAIT_EXPIRY (R165). -/
def execAttemptWaitExpiry (s : State) : Out := s.taken State.attemptWaitExpired

/-- LOAD (R168): the working request is a LOAD without FINISH. -/
def execLoad (s : State) : Out :=
  s.taken fun s => s.withRequest .load fun r => if r.finish then s else s.accepting .load s.loadTaken

/-- LOAD_FINISH (R168): the working request is a LOAD with FINISH. -/
def execLoadFinish (s : State) : Out :=
  s.taken fun s => s.withRequest .load fun r => if r.finish then s.accepting .load s.loadFinishTaken else s

end Sys2Proof.Machine
end

