-- ==== Sys2Proof/Machine/Line.lean ====
section
/-! DEFINITION. The Line Controller: the line view, the take, attempts, collision, outcome and reception (R110 to R126, R137). -/

namespace Sys2Proof.Machine

/-! ## The telegrams the slot owners build -/

/-- The telegram of an entry, built at the take from the entry as it stands (R64, R68, R95 to R98). -/
def Entry.telegram (e : Entry) (own : Byte) (o : Outbound) : Telegram :=
  match o.kind with
  | .publish =>
    ⟨TelegramKind.publish.code, flagBits o.refresh o.answer false, own, e.decl.objectId, e.decl.rank, e.version.getD 0#8,
      BitVec.ofNat 8 e.value.length, e.value⟩
  | .query =>
    ⟨TelegramKind.query.code, flagBits false false e.version.isNone, own, e.decl.objectId, e.decl.rank, e.version.getD 0#8, 0#8, []⟩
  | .claim => ⟨TelegramKind.claim.code, 0#4, own, e.decl.objectId, e.decl.rank, 0#8, 0#8, []⟩
  | .yield =>
    match o.successor with
    | none => ⟨TelegramKind.yield.code, 0#4, own, e.decl.objectId, e.decl.rank, e.version.getD 0#8, 0#8, []⟩
    | some n => ⟨TelegramKind.yield.code, 0#4, own, e.decl.objectId, e.decl.rank, e.version.getD 0#8, 1#8, [n]⟩

/-- The station's PRESENCE with a status, built at the take (R85, R99). -/
def State.presenceTelegram (s : State) (st : PresenceStatus) : Telegram :=
  ⟨TelegramKind.presence.code, 0#4, s.ownNumber, s.sc.epoch.getD 0#12, st.code, BitVec.ofNat 8 (s.ownPeriod / 10), 0#8, []⟩

/-! ## The line view -/

/-- LINE_QUIET (R112): 12 bit times at 1 with TXEN inactive make a BUSY view QUIET. -/
def State.lineQuiet (s : State) : State :=
  if s.lc.view = some .busy ∧ s.lc.tx.driving = false then { s with lc := { s.lc with view := some .quiet } } else s

/-- LINE_BUSY (R112, R120): RXD at 0 makes a QUIET view BUSY; outside the own transmission a reception may have begun. -/
def State.lineBusy (s : State) : State :=
  if s.lc.view = some .quiet then
    { s with lc := { s.lc with view := some .busy, receiving := !s.lc.tx.driving } }
  else s

/-! ## Attempts -/

/-- An attempt starts: LC drives TXEN, so the view is BUSY and nothing is being received (R112, R116, R121). -/
def State.startAttempt (s : State) (h : Held) : State :=
  { s with lc := { s.lc with tx := .transmitting h, view := some .busy, receiving := false } }

/-- The take of the URGENT head: its telegram is frozen, its slot becomes IN_FLIGHT, the freed place is offered (R115, R137). -/
def State.takeUrgent (s : State) (i : Nat) (rest : List Nat) : State :=
  s.withEntry i fun e =>
    match e.slot with
    | .queued o =>
      let s1 := { s with ts := { s.ts with urgent := rest } }
      ((s1.setSlot i (.inFlight o .none)).startAttempt ⟨e.telegram s.ownNumber o, .urgent, .entry i, 1⟩).offerUrgent
    | .none | .waiting _ | .owed _ | .inFlight _ _ => s

/-- The take of the ROUTINE head, an entry's telegram or the PRESENCE (R115, R137). -/
def State.takeRoutine (s : State) (r : Ref) (rest : List Ref) : State :=
  let s1 := { s with ts := { s.ts with routine := rest } }
  match r with
  | .entry i =>
    s.withEntry i fun e =>
      match e.slot with
      | .queued o =>
        ((s1.setSlot i (.inFlight o .none)).startAttempt ⟨e.telegram s.ownNumber o, .routine, .entry i, 1⟩).freedRoutine
      | .none | .waiting _ | .owed _ | .inFlight _ _ => s
  | .presence =>
    match s.sc.presence with
    | .queued st =>
      ({ s1 with sc := { s1.sc with presence := .inFlight st none } }.startAttempt
        ⟨s.presenceTelegram st, .routine, .presence, 1⟩).freedRoutine
    | .none | .owed _ | .inFlight _ _ => s

/-- TAKE (R114, R115) `age` bit times after the start of quiet: the URGENT head at once, the ROUTINE head after its gap with no URGENT head. -/
def State.take (s : State) (age : Nat) : State :=
  if s.lc.tx = .idle ∧ s.lc.view = some .quiet then
    match s.ts.urgent with
    | i :: rest => s.takeUrgent i rest
    | [] =>
      match s.ts.routine with
      | [] => s
      | r :: rest => if classGap .routine * Config.slotBits ≤ age then s.takeRoutine r rest else s
  else s

/-- RETRY_ATTEMPT (R118) `age` bit times after the start of quiet: once the class gap plus the backoff has passed. -/
def State.retryAttempt (s : State) (age : Nat) : State :=
  match s.lc.tx with
  | .retryWait h draw =>
    if s.lc.view = some .quiet ∧ (classGap h.cls + draw) * Config.slotBits ≤ age then s.startAttempt h else s
  | .off | .idle | .transmitting _ | .jamming _ | .halted => s

/-- Report an outcome through TS to the slot owner (R130). -/
def State.report (s : State) (r : Ref) (outcome : TxOutcome) : State :=
  match r with
  | .entry i => { s with paths := { s.paths with reports := s.paths.reports ++ [(i, outcome)] } }
  | .presence => { s with paths := { s.paths with presenceReport := some outcome } }

/-- A sent outcome with the recovery flag set posts LINE (RECOVERED) and clears it (R122). -/
def State.recover (s : State) : State :=
  if s.lc.recovery then { s with lc := { s.lc with recovery := false } }.postStation (.line .recovered) 0#8 else s

/-- SENT (R116): TXEN released, outcome reported, TX_SENT counted, consecutive-abandon count 0, IDLE. -/
def State.sent (s : State) : State :=
  match s.lc.tx with
  | .transmitting h =>
    (({ s with lc := { s.lc with tx := .idle, abandons := 0 } }.report h.ref .sent).bump .txSent).recover
  | .off | .idle | .jamming _ | .retryWait _ _ | .halted => s

/-- COLLISION (R117): a level read that differs from the level driven in that bit time of the attempt. -/
def State.collide (s : State) (bit : Nat) (level : Bool) : State :=
  match s.lc.tx with
  | .transmitting h =>
    match h.telegram.levels[bit]? with
    | some driven =>
      if driven = level then s
      else { s with lc := { s.lc with tx := .jamming h } }.bump .collisions
    | none => s
  | .off | .idle | .jamming _ | .retryWait _ _ | .halted => s

/-- The number of backoff values after the k-th failed attempt: 2^min(k,4) (R118). -/
def backoffRange (k : Nat) : Nat := 2 ^ min k 4

/-- A failed attempt that is not the last: a backoff is drawn and the telegram waits for its next attempt (R118). -/
def State.drawBackoff (s : State) (h : Held) : State :=
  { s with
    draws := s.draws + 1
    lc := { s.lc with tx := .retryWait { h with attempt := h.attempt + 1 } (s.drawn % backoffRange h.attempt) } }

/-- The telegram is abandoned (R119): outcome reported, ABANDONED counted, and at the third in a row HALTED with LINE (MUTED) and the MUTED report (R122). -/
def State.abandon (s : State) (h : Held) : State :=
  let n := s.lc.abandons + 1
  let s1 := ({ s with lc := { s.lc with tx := .idle, abandons := n } }.report h.ref .abandoned).bump .abandoned
  if n < Config.abandonLimit then s1
  else
    let s2 := { s1 with lc := { s1.lc with tx := .halted, recovery := true } }.postStation (.line .muted) 0#8
    { s2 with paths := { s2.paths with mutedReport := true } }

/-- JAM_END (R117): after the 8th attempt the telegram is abandoned, otherwise a backoff is drawn. -/
def State.jamEnd (s : State) : State :=
  match s.lc.tx with
  | .jamming h => if h.attempt < Config.attemptLimit then s.drawBackoff h else s.abandon h
  | .off | .idle | .transmitting _ | .retryWait _ _ | .halted => s

/-! ## Reception -/

/-- The bytes of a reception that ended with an end of telegram: delivered to TF if framed and its check is good, otherwise RX_BAD (R120, R121). -/
def State.receivedBytes (s : State) (bytes : List Byte) : State :=
  if framed bytes && checkGood bytes then
    { s with paths := { s.paths with toTf := s.paths.toTf ++ [Telegram.ofBytes bytes] } }
  else s.bump .rxBad

/-- RECEPTION (R120): a reception in progress ends by its levels. A framing failure counts RX_BAD and the view waits for QUIET;
an end of telegram is the moment the view becomes QUIET. Levels that begin no reception, or in which it has not ended, are no such event. -/
def State.reception (s : State) (levels : List Bool) : State :=
  if s.lc.view.isSome = true ∧ s.lc.receiving = true then
    match frame levels with
    | some .failed => { s with lc := { s.lc with receiving := false } }.bump .rxBad
    | some (.ended bytes) => { s with lc := { s.lc with receiving := false, view := some .quiet } }.receivedBytes bytes
    | some (.due _ _) | some (.data _ _ _) | none => s
  else s

/-! ## The meanings -/

/-- LINE_QUIET (R112). -/
def execLineQuiet (s : State) : Out := s.taken State.lineQuiet

/-- LINE_BUSY (R112). -/
def execLineBusy (s : State) : Out := s.taken State.lineBusy

/-- TAKE (R115). -/
def execTake (age : Nat) (s : State) : Out := s.taken fun s => s.take age

/-- RETRY_ATTEMPT (R118). -/
def execRetryAttempt (age : Nat) (s : State) : Out := s.taken fun s => s.retryAttempt age

/-- SENT (R116). -/
def execSent (s : State) : Out := s.taken State.sent

/-- COLLISION (R117). -/
def execCollision (bit : Nat) (level : Bool) (s : State) : Out := s.taken fun s => s.collide bit level

/-- JAM_END (R117). -/
def execJamEnd (s : State) : Out := s.taken State.jamEnd

/-- RECEPTION (R120). -/
def execReception (levels : List Bool) (s : State) : Out := s.taken fun s => s.reception levels

end Sys2Proof.Machine
end

