-- ==== Sys2Proof/Machine/Port.lean ====
section
/-! DEFINITION. The Local Port's own events: writes to the window, SUBMIT, RETIRE and EVENT NEXT (R171 to R176, R196, R204). -/

namespace Sys2Proof.Machine

/-- SUBMIT (R174, R176): in READY the request area is copied, the flag cleared, and LP's checks answer BAD_REQUEST or leave
the request to its owning block; in WORKING or DONE the write is ignored and the flag set. -/
def State.submitWritten (s : State) : State :=
  match s.lp.port with
  | .ready =>
    let r := Request.ofArea s.lp.request
    { s with lp := { s.lp with
        port := if r.lpGood then .working s.lp.request else .done (r.answer .badRequest)
        submitIgnored := false } }
  | .working _ | .done _ => { s with lp := { s.lp with submitIgnored := true } }

/-- RETIRE (R175): in DONE the response is cleared and the port is READY; otherwise ignored. -/
def State.retireWritten (s : State) : State :=
  match s.lp.port with
  | .done _ => { s with lp := { s.lp with port := .ready } }
  | .ready | .working _ => s

/-- A write at a window address (R172, R204): the request area stores it, the three command addresses start their commands
whatever byte is written, every other address takes nothing. -/
def State.portWritten (s : State) (addr : BitVec 6) (byte : Byte) : State :=
  let a := addr.toNat
  if a < Config.areaSize then { s with lp := { s.lp with request := s.lp.request.write a byte } }
  else if a = 49 then s.submitWritten
  else if a = 50 then s.retireWritten
  else if a = 51 then s.popEvent
  else s

/-- PORT_WRITE (R172). -/
def execPortWrite (addr : BitVec 6) (byte : Byte) (s : State) : Out := s.taken fun s => s.portWritten addr byte

/-- SUBMIT (R174). -/
def execSubmit (s : State) : Out := s.taken State.submitWritten

/-- RETIRE (R175). -/
def execRetire (s : State) : Out := s.taken State.retireWritten

/-- EVENT_NEXT (R196). -/
def execEventNext (s : State) : Out := s.taken State.popEvent

end Sys2Proof.Machine
end

