-- ==== Sys2Proof/Machine/Ownership.lean ====
section
/-! DEFINITION. The ownership protocol at one entry: claims, wins, yields, defence, the taking of values, orphaning, the takeover logic, publication requests. -/

namespace Sys2Proof.Machine

/-! ## Publication requests -/

/-- A PUBLISH as a slot records it. -/
def publishOf (cls : TxClass) (refresh answer : Bool) : Outbound := ⟨.publish, cls, refresh, answer, none⟩

/-- A CLAIM as a slot records it: URGENT (R128). -/
def claimOut : Outbound := ⟨.claim, .urgent, false, false, none⟩

/-- A QUERY as a slot records it: ROUTINE (R128). -/
def queryOut : Outbound := ⟨.query, .routine, false, false, none⟩

/-- A YIELD as a slot records it: URGENT, naming a successor at a handback (R128). -/
def yieldOut (successor : Option Byte) : Outbound := ⟨.yield, .urgent, false, false, successor⟩

/-- A new PUBLISH for a slot that is NONE, obeying spacing: WAITING while the spacing timer runs, otherwise appended (R55, R62). -/
def State.publishSpaced (s : State) (i : Nat) (e : Entry) (o : Outbound) : State :=
  match e.spacingTimer with
  | some _ => s.setSlot i (.waiting o)
  | none => s.append i o

/-- A request merged into a WAITING, QUEUED or OWED telegram changes its flags and leaves its place (R56). -/
def Slot.merged (f : Outbound → Outbound) : Slot → Slot
  | .waiting o => .waiting (f o)
  | .owed o => .owed (f o)
  | .queued o => .queued (f o)
  | .none => .none
  | .inFlight o g => .inFlight o g

/-- A change PUBLISH is requested (R58). -/
def State.requestChange (s : State) (i : Nat) : State :=
  s.withEntry i fun e =>
    match e.slot with
    | .none => s.publishSpaced i e (publishOf e.decl.cls false false)
    | .waiting _ | .owed _ | .queued _ => s.setSlot i (e.slot.merged fun o => { o with refresh := false })
    | .inFlight o .none => s.setSlot i (.inFlight o (.publish e.decl.cls))
    | .inFlight _ (.publish _) | .inFlight _ (.yield _) | .inFlight _ .cancel => s

/-- An answer to a QUERY is requested (R72). -/
def State.requestAnswer (s : State) (i : Nat) : State :=
  s.withEntry i fun e =>
    match e.slot with
    | .none => s.publishSpaced i e (publishOf e.decl.cls false true)
    | .waiting _ | .owed _ | .queued _ => s.setSlot i (e.slot.merged fun o => { o with answer := true })
    | .inFlight _ _ => s

/-- A defending PUBLISH is requested, or a pending PUBLISH made one (R39, R136). -/
def State.defend (s : State) (i : Nat) : State :=
  s.withEntry i fun e =>
    match e.slot with
    | .none => s.append i (publishOf .urgent false true)
    | .waiting o => (s.withdraw i).append i { o with cls := .urgent, answer := true }
    | .owed o | .queued o =>
      match o.cls with
      | .urgent => s.setSlot i (e.slot.merged fun o => { o with answer := true })
      | .routine => (s.withdraw i).append i { o with cls := .urgent, answer := true }
    | .inFlight _ _ => s

/-! ## Claims -/

/-- A claim starts at a consumer entry, unless an IN_FLIGHT telegram stands against it (R29).
The pending tag is as the caller left it: a CLAIM request's tag, or absent for an automatic claim (R6). -/
def State.startClaim (s : State) (i : Nat) : State :=
  s.withEntry i fun e =>
    match e.ownership with
    | .claiming _ _ | .own | .yielding => s
    | .consumer view =>
      if e.slot.blocksClaim then s
      else
        let s1 := s.modify i fun e => { e with ownership := .claiming view false, takeoverTimer := none }
        match e.slot with
        | .inFlight o _ => s1.setSlot i (.inFlight o .none)
        | .none => s1.append i claimOut
        | .waiting _ | .owed _ | .queued _ => (s1.withdraw i).append i claimOut

/-- The takeover delay of an entry: rank × claim window (R7). -/
def State.takeoverDelay (s : State) (e : Entry) : Nat := e.decl.rank.toNat * s.claimWindow

/-- Start the takeover timer of an entry at its full delay. -/
def State.startTakeover (s : State) (i : Nat) : State :=
  s.modify i fun e => { e with takeoverTimer := some (s.takeoverDelay e) }

/-- A SPARE entry with the takeover flag. -/
def Decl.takesOver (d : Decl) : Bool := decide (d.role = .spare) && d.takeover

/-- The takeover logic at an ORPHANED or UNKNOWN entry while the station is ACTIVE (R51). -/
def State.takeoverLogic (s : State) (i : Nat) : State :=
  s.withEntry i fun e =>
    if s.sc.state = .active then
      match e.ownership with
      | .consumer .unknown | .consumer (.orphaned _ _) =>
        if e.decl.role = .home then s.startClaim i
        else if e.decl.takesOver then s.startTakeover i
        else s
      | .consumer (.foreign _ _ _) | .claiming _ _ | .own | .yielding => s
    else s

/-- The takeover logic where the entry is ORPHANED, as after a cancelled claim or an outcome (R45, R46, R51). -/
def State.takeoverIfOrphaned (s : State) (i : Nat) : State :=
  s.withEntry i fun e =>
    match e.ownership with
    | .consumer (.orphaned _ _) => s.takeoverLogic i
    | .consumer .unknown | .consumer (.foreign _ _ _) | .claiming _ _ | .own | .yielding => s

/-- A HOME entry that is ORPHANED with slot NONE in ACTIVE claims (R51, R71, R130). -/
def State.claimIfHomeOrphaned (s : State) (i : Nat) : State :=
  s.withEntry i fun e =>
    if e.decl.role = .home ∧ e.slot.isNone = true then s.takeoverIfOrphaned i else s

/-- The effects of winning on the entry itself: OWN, version advanced, FRESH, timers (R36). -/
def Entry.won (e : Entry) : Entry :=
  { e with ownership := .own, version := some (nextVersion e.version), freshness := .fresh,
           freshTimer := none, refreshTimer := some e.decl.refresh, windowTimer := none, takeoverTimer := none, pendingTag := none }

/-- A claimant wins: CLAIM withdrawn if pending, first PUBLISH requested URGENT or recorded as follow-up, CLAIM_OUTCOME WON posted (R35, R36). -/
def State.win (s : State) (i : Nat) : State :=
  s.withEntry i fun e =>
    let s1 := s.modify i Entry.won
    let s2 := match e.slot with
      | .none => s1.append i (publishOf .urgent false false)
      | .waiting _ | .owed _ | .queued _ => (s1.withdraw i).append i (publishOf .urgent false false)
      | .inFlight o _ => s1.setSlot i (.inFlight o (.publish .urgent))
    s2.postEntry i (.claimOutcome .won) e.tag

/-- A CLAIM that has lost its reason: withdrawn if pending, follow-up CANCEL recorded if IN_FLIGHT (R33, R34, R45). -/
def State.voidClaim (s : State) (i : Nat) : State :=
  s.withEntry i fun e =>
    match e.slot with
    | .none => s
    | .waiting _ | .owed _ | .queued _ => s.withdraw i
    | .inFlight o _ => s.setSlot i (.inFlight o .cancel)

/-- A claimant loses to a better-keyed CLAIM: UNKNOWN, CLAIM_OUTCOME LOST, takeover timer of a SPARE in ACTIVE (R34). -/
def State.loseToClaim (s : State) (i : Nat) : State :=
  s.withEntry i fun e =>
    let s1 := (s.voidClaim i).modify i fun e => { e with ownership := .consumer .unknown, windowTimer := none, pendingTag := none }
    let s2 := s1.postEntry i (.claimOutcome .lost) e.tag
    if e.decl.takesOver = true ∧ s.sc.state = .active then s2.startTakeover i else s2

/-- The claim of a CLAIMING entry is cancelled: by a RELEASE (R45) or by the leave (R54).
At once if the CLAIM is pending or the window open, at the CLAIM's outcome if it is IN_FLIGHT. -/
def State.cancelClaim (s : State) (i : Nat) : State :=
  s.withEntry i fun e =>
    match e.slot with
    | .inFlight o _ => s.setSlot i (.inFlight o .cancel)
    | .none | .waiting _ | .owed _ | .queued _ => ((s.withdraw i).returnToPrior i .cancelled).takeoverIfOrphaned i

/-! ## Yielding -/

/-- An OWN entry yields: YIELDING, refresh timer stopped, the YIELD put in the slot, in place of a pending PUBLISH,
or as follow-up of a telegram in flight (R38, R43, R54, R136). -/
def State.startYield (s : State) (i : Nat) (successor : Option Byte) : State :=
  s.withEntry i fun e =>
    let s1 := s.modify i fun e => { e with ownership := .yielding, refreshTimer := none }
    match e.slot with
    | .none => s1.append i (yieldOut successor)
    | .waiting _ | .owed _ | .queued _ => (s1.withdraw i).append i (yieldOut successor)
    | .inFlight o _ => s1.setSlot i (.inFlight o (.yield successor))

/-- A handback is complete: FOREIGN with the successor at rank 0, newly recorded (R42). -/
def State.handedBack (s : State) (i : Nat) (successor : Byte) : State :=
  (s.modify i fun e =>
    { e.stopOwnTimers with ownership := .consumer (.foreign successor 0#4 true), freshTimer := some e.decl.limit }).postAll i
      [(.ownershipLost .handback, 0#8), (.ownerChanged .newOwner, 0#8)]

/-- A release or leave YIELD is complete: UNKNOWN, and RELEASE_OUTCOME if a tag is pending (R44). -/
def State.released (s : State) (i : Nat) (outcome : TxOutcome) : State :=
  s.withEntry i fun e =>
    (s.modify i Entry.givenUp).postAll i
      (match e.pendingTag with
        | none => []
        | some t => [(.releaseOutcome (match outcome with
            | .sent => .released
            | .abandoned => .unannounced), t)])

/-! ## Taking values -/

/-- Whether an acceptance posts ARRIVAL: by notify, and under CHANGE not for a same-version refresh (R19). -/
def Notify.arrives (n : Notify) (sameRefresh : Bool) : Bool :=
  match n with
  | .none => false
  | .change => !sameRefresh
  | .every => true

/-- Withdraw a QUERY that is QUEUED or OWED (R16, R71). -/
def State.withdrawQuery (s : State) (i : Nat) : State :=
  s.withEntry i fun e =>
    match e.slot with
    | .queued o | .owed o => if o.kind = .query then s.withdraw i else s
    | .none | .waiting _ | .inFlight _ _ => s

/-- The value of a PUBLISH is accepted from the recorded owner; `before` are the ownership records of the event,
which stand ahead of the data events (R16, R19, R28, R74). -/
def State.acceptValue (s : State) (i : Nat) (t : Telegram) (sameRefresh : Bool) (before : List (EventKind × Byte)) : State :=
  s.withEntry i fun e =>
    let s1 := s.modify i fun e =>
      { e with ownership := .consumer (.foreign t.source t.rank false), version := some t.version, value := t.payload,
               freshness := .fresh, freshTimer := some e.decl.limit }
    (s1.withdrawQuery i).postAll i
      (before
        ++ (if e.freshness = .stale ∧ e.decl.notify ≠ .none then [(.fresh, 0#8)] else [])
        ++ (if e.decl.notify.arrives sameRefresh then [(.arrival, 0#8)] else []))

/-- The value of a PUBLISH is refused for its length, after the ownership records of the event (R20). -/
def State.refuseValue (s : State) (i : Nat) (t : Telegram) (before : List (EventKind × Byte)) : State :=
  s.withEntry i fun e =>
    ((s.postAll i before).bump .refused).post .valueRefused e.decl.objectId 0#8 (some t.version)

/-- A publisher becomes the recorded owner and its value is taken at any version, or refused for its length.
`deadline` is the freshness deadline where the value is refused (R14, R15, R20). -/
def State.adoptOwner (s : State) (i : Nat) (t : Telegram) (deadline : Timer) (before : List (EventKind × Byte)) : State :=
  s.withEntry i fun e =>
    if e.decl.maxLength < t.length.toNat then
      (s.modify i fun e => { e with ownership := .consumer (.foreign t.source t.rank true), freshTimer := deadline }).refuseValue i t
        (before ++ [(.ownerChanged .newOwner, 0#8)])
    else s.acceptValue i t false (before ++ [(.ownerChanged .newOwner, 0#8)])

/-- A PUBLISH from the recorded owner of a FOREIGN entry: refused, accepted or discarded as older; its rank is recorded in every case (R15, R16, R20). -/
def State.takeFromOwner (s : State) (i : Nat) (t : Telegram) (anyVersion : Bool) : State :=
  s.withEntry i fun e =>
    if e.decl.maxLength < t.length.toNat then
      (s.modify i fun e => { e with ownership := .consumer (.foreign t.source t.rank anyVersion) }).refuseValue i t []
    else if anyVersion then s.acceptValue i t false []
    else
      match e.version with
      | none => s.acceptValue i t false []
      | some held =>
        match versionOrder t.version held with
        | .newer => s.acceptValue i t false []
        | .same => s.acceptValue i t true []
        | .older => (s.modify i fun e => { e with ownership := .consumer (.foreign t.source t.rank false) }).bump .oldVersion

/-- A PUBLISH at a consumer entry (R47). -/
def State.publishAtConsumer (s : State) (i : Nat) (t : Telegram) (view : View) : State :=
  s.withEntry i fun e =>
    match view with
    | .unknown | .orphaned _ _ =>
      (s.modify i fun e => { e with takeoverTimer := none }).adoptOwner i t e.freshTimer []
    | .foreign owner rank anyVersion =>
      if t.source = owner then s.takeFromOwner i t anyVersion
      else if t.key < key rank owner then s.adoptOwner i t e.restartedDeadline []
      else s

/-- A PUBLISH at a CLAIMING entry: ignored by a HOME claimant where the publisher is no HOME, otherwise the claimant loses (R33). -/
def State.publishAtClaimant (s : State) (i : Nat) (t : Telegram) : State :=
  s.withEntry i fun e =>
    if e.decl.rank = 0#4 ∧ t.rank ≠ 0#4 then s
    else
      ((s.voidClaim i).modify i fun e => { e with windowTimer := none, pendingTag := none }).adoptOwner i t e.restartedDeadline
        [(.claimOutcome .lost, e.tag)]

/-- A PUBLISH already IN_FLIGHT goes out unchanged without its follow-up; a pending one is withdrawn (R40). -/
def State.voidPublish (s : State) (i : Nat) : State :=
  s.withEntry i fun e =>
    match e.slot with
    | .none => s
    | .waiting _ | .owed _ | .queued _ => s.withdraw i
    | .inFlight o _ => s.setSlot i (.inFlight o .none)

/-- A PUBLISH at an OWN entry: the better key drops the owner, a worse one is answered by a defence (R40). -/
def State.publishAtOwner (s : State) (i : Nat) (t : Telegram) : State :=
  s.withEntry i fun e =>
    if t.key < s.ownKey e then
      ((s.voidPublish i).modify i Entry.stopOwnTimers).adoptOwner i t (some e.decl.limit) [(.ownershipLost .conflict, 0#8)]
    else s.defend i

/-! ## Orphaning -/

/-- A FOREIGN entry becomes ORPHANED with its former owner; OWNER_CHANGED and the takeover logic follow (R48, R50). -/
def State.orphanEntry (s : State) (i : Nat) (view : View) : State :=
  ((s.modify i fun e => { e with ownership := .consumer view.orphan }).postEntry i (.ownerChanged .orphaned) 0#8).takeoverLogic i

/-- A named successor is recorded as owner at rank 0, newly recorded (R48). -/
def State.followSuccessor (s : State) (i : Nat) (successor : Byte) : State :=
  (s.modify i fun e => { e with ownership := .consumer (.foreign successor 0#4 true), freshTimer := e.restartedDeadline,
                                 takeoverTimer := none }).postEntry i (.ownerChanged .newOwner) 0#8

/-- The successor a YIELD names that consumers follow: neither the own station nor the source (R48). -/
def State.validSuccessor (s : State) (t : Telegram) : Option Byte :=
  match t.successor with
  | none => none
  | some n => if n = s.ownNumber ∨ n = t.source then none else some n

/-- A YIELD at a consumer entry (R48). -/
def State.yieldAtConsumer (s : State) (i : Nat) (t : Telegram) (view : View) : State :=
  match view with
  | .unknown => s
  | .foreign owner _ _ =>
    if t.source = owner then
      match s.validSuccessor t with
      | some n => s.followSuccessor i n
      | none => s.orphanEntry i view
    else s
  | .orphaned owner _ =>
    if t.source = owner then
      match s.validSuccessor t with
      | some n => s.followSuccessor i n
      | none => s
    else s

/-- The prior state of a claim after a YIELD that does not end the claim: updated where the YIELD comes from the owner
it records, as a consumer entry would be, with the mark that it has changed (R35). A successor that is the source itself is taken as none,
as R48 takes it, though R35 excepts the own station alone: the prior state becomes ORPHANED (assumption 34). -/
def updatedPrior (t : Telegram) (valid : Option Byte) (prior : View) (changed : Bool) : View × Bool :=
  match prior with
  | .unknown => (prior, changed)
  | .foreign owner rank _ =>
    if t.source = owner then
      match valid with
      | some n => (.foreign n 0#4 true, true)
      | none => (.orphaned owner rank, true)
    else (prior, changed)
  | .orphaned owner _ =>
    if t.source = owner then
      match valid with
      | some n => (.foreign n 0#4 true, true)
      | none => (prior, changed)
    else (prior, changed)

/-- The slot carries a CLAIM IN_FLIGHT with follow-up CANCEL. -/
def Slot.cancelled : Slot → Bool
  | .inFlight _ .cancel => true
  | .inFlight _ .none | .inFlight _ (.publish _) | .inFlight _ (.yield _) => false
  | .none | .waiting _ | .owed _ | .queued _ => false

/-- A YIELD at a CLAIMING entry: naming the own station it makes the claimant win, unless its claim is cancelled;
otherwise it may change the prior state (R35). The freshness deadline runs on as it was, also where the prior state takes a new owner
and the entry is FRESH: the prior state alone is updated (assumption 29). A source that names itself names no successor (assumption 34). -/
def State.yieldAtClaimant (s : State) (i : Nat) (t : Telegram) (prior : View) (changed : Bool) : State :=
  s.withEntry i fun e =>
    if t.successor = some s.ownNumber ∧ e.slot.cancelled = false then s.win i
    else
      let u := updatedPrior t (s.validSuccessor t) prior changed
      s.modify i fun e => { e with ownership := .claiming u.1 u.2 }

/-- A notice for a station at one entry (R37, R50). -/
def State.noticeAtEntry (s : State) (station : Byte) (i : Nat) : State :=
  s.withEntry i fun e =>
    match e.ownership with
    | .consumer view => if view.ownedBy station then s.orphanEntry i view else s
    | .claiming prior _ =>
      if prior.ownedBy station then s.modify i fun e => { e with ownership := .claiming prior.orphan true } else s
    | .own | .yielding => s

/-- A notice for a station at OD: the entries in index order (R50). -/
def State.noticeAtOd (s : State) (station : Byte) : State := s.eachEntry fun s i => s.noticeAtEntry station i

/-- OD takes every notice that waits, in the order PM gave them (R82). -/
def State.noticesTaken (s : State) : State :=
  s.paths.notices.foldl (fun s n => s.noticeAtOd n.station) { s with paths := { s.paths with notices := [] } }

/-! ## Queries -/

/-- A QUERY is requested for an entry (R68). -/
def State.requestQuery (s : State) (i : Nat) : State := s.append i queryOut

end Sys2Proof.Machine
end

