-- ==== Sys2Proof/Machine/Received.lean ====
section
/-! DEFINITION. What OD takes from the other blocks: routed telegrams, PM's notices, outcome reports (R50, R38, R47, R48, R72, R130). -/

namespace Sys2Proof.Machine

/-- OD takes the oldest telegram routed to it if it is of that kind, at the entry with its object id (R1, R103). -/
def State.takeRouted (s : State) (kind : TelegramKind) (k : State → Nat → Entry → Telegram → State) : State :=
  match s.paths.toOd with
  | [] => s
  | t :: rest =>
    if t.kindOf = some kind then
      let s1 := { s with paths := { s.paths with toOd := rest } }
      match s1.find t.objectId.toNat with
      | none => s1
      | some i => s1.withEntry i fun e => k s1 i e t
    else s

/-- A PUBLISH at the entry, by its ownership state (R33, R40, R41, R47). -/
def State.publishAtEntry (s : State) (i : Nat) (e : Entry) (t : Telegram) : State :=
  match e.ownership with
  | .consumer view => s.publishAtConsumer i t view
  | .claiming _ _ => s.publishAtClaimant i t
  | .own => s.publishAtOwner i t
  | .yielding => s

/-- PUBLISH_RECEIVED (R47); a withdrawal it makes may clear the last slot of a LEAVING station (R141). -/
def State.publishReceived (s : State) : State :=
  s.takeRouted .publish fun s i e t => (s.publishAtEntry i e t).judgeSlots

/-- A CLAIM at a consumer entry: a better key restarts a running takeover timer (R49). -/
def State.claimAtConsumer (s : State) (i : Nat) (e : Entry) (t : Telegram) : State :=
  if e.takeoverTimer.isSome = true ∧ t.key < s.ownKey e then s.startTakeover i else s

/-- A CLAIM at a CLAIMING entry: a better key defeats the claimant (R34). -/
def State.claimAtClaimant (s : State) (i : Nat) (e : Entry) (t : Telegram) : State :=
  if t.key < s.ownKey e then s.loseToClaim i else s

/-- A CLAIM at an OWN entry: a handback to a HOME claimant from a SPARE owner, otherwise a defence (R38). -/
def State.claimAtOwner (s : State) (i : Nat) (e : Entry) (t : Telegram) : State :=
  if t.rank = 0#4 ∧ e.decl.rank ≠ 0#4 then s.startYield i (some t.source) else s.defend i

/-- A CLAIM at the entry, by its ownership state (R34, R38, R41, R49); ignored by every entry while the station is LEAVING (R54). -/
def State.claimAtEntry (s : State) (i : Nat) (e : Entry) (t : Telegram) : State :=
  if s.sc.state = .leaving then s
  else
    match e.ownership with
    | .consumer _ => s.claimAtConsumer i e t
    | .claiming _ _ => s.claimAtClaimant i e t
    | .own => s.claimAtOwner i e t
    | .yielding => s

/-- CLAIM_RECEIVED (R38). -/
def State.claimReceived (s : State) : State :=
  s.takeRouted .claim fun s i e t => s.claimAtEntry i e t

/-- A YIELD at the entry, by its ownership state (R35, R41, R48). -/
def State.yieldAtEntry (s : State) (i : Nat) (e : Entry) (t : Telegram) : State :=
  match e.ownership with
  | .consumer view => s.yieldAtConsumer i t view
  | .claiming prior changed => s.yieldAtClaimant i t prior changed
  | .own | .yielding => s

/-- YIELD_RECEIVED (R48). -/
def State.yieldReceived (s : State) : State :=
  s.takeRouted .yield fun s i e t => s.yieldAtEntry i e t

/-- A QUERY at the entry: an OWN entry answers unless the asker holds its version (R72). -/
def State.queryAtEntry (s : State) (i : Nat) (e : Entry) (t : Telegram) : State :=
  match e.ownership with
  | .own => if t.noneHeld = false ∧ e.version = some t.version then s else s.requestAnswer i
  | .consumer _ | .claiming _ _ | .yielding => s

/-- QUERY_RECEIVED (R72). -/
def State.queryReceived (s : State) : State :=
  s.takeRouted .query fun s i e t => s.queryAtEntry i e t

/-- PEER_NOTICE (R50, R82): OD takes the oldest notice. -/
def State.peerNotice (s : State) : State :=
  match s.paths.notices with
  | [] => s
  | n :: rest => { s with paths := { s.paths with notices := rest } }.noticeAtOd n.station

/-! ## Outcome reports -/

/-- The timers after a PUBLISH is sent: refresh restarts while OWN, spacing starts while OWN or YIELDING (R65). -/
def Entry.publishSent (e : Entry) : Entry :=
  let spaced : Timer := if e.decl.spacing = 0 then none else some e.decl.spacing
  match e.ownership with
  | .own => { e with refreshTimer := some e.decl.refresh, spacingTimer := spaced }
  | .yielding => { e with spacingTimer := spaced }
  | .consumer _ | .claiming _ _ => e

/-- Serve the follow-up of a telegram whose outcome has made the slot NONE (R67). -/
def State.serveFollowUp (s : State) (i : Nat) (follow : FollowUp) : State :=
  s.withEntry i fun e =>
    match follow, e.ownership with
    | .publish cls, .own => s.publishSpaced i e (publishOf cls false false)
    | .yield successor, .yielding => s.append i (yieldOut successor)
    | .none, _ | .cancel, _ => s
    | .publish _, .consumer _ | .publish _, .claiming _ _ | .publish _, .yielding => s
    | .yield _, .consumer _ | .yield _, .claiming _ _ | .yield _, .own => s

/-- The outcome of a CLAIM (R31, R32, R46). -/
def State.claimOutcome (s : State) (i : Nat) (e : Entry) (follow : FollowUp) (outcome : TxOutcome) : State :=
  match e.ownership with
  | .claiming _ _ =>
    if follow = .cancel then (s.returnToPrior i .cancelled).takeoverIfOrphaned i
    else
      match outcome with
      | .sent => s.modify i fun e => { e with windowTimer := some s.claimWindow }
      | .abandoned => (s.returnToPrior i .failed).takeoverLogic i
  | .consumer _ | .own | .yielding => s

/-- The outcome of a YIELD (R42, R44). -/
def State.yieldOutcome (s : State) (i : Nat) (e : Entry) (o : Outbound) (outcome : TxOutcome) : State :=
  match e.ownership with
  | .yielding =>
    match o.successor with
    | some n => s.handedBack i n
    | none => s.released i outcome
  | .consumer _ | .claiming _ _ | .own => s

/-- The kind's rule applied to the entry as it stands, its slot already NONE (R130). -/
def State.outcomeByKind (s : State) (i : Nat) (e : Entry) (o : Outbound) (follow : FollowUp) (outcome : TxOutcome) : State :=
  match o.kind with
  | .publish =>
    match outcome with
    | .sent => s.modify i Entry.publishSent
    | .abandoned => s
  | .claim => s.claimOutcome i e follow outcome
  | .yield => s.yieldOutcome i e o outcome
  | .query => s

/-- An outcome at an entry whose slot is IN_FLIGHT: slot NONE, the kind's rule, the follow-up, a claim of an ORPHANED HOME entry (R130, R51). -/
def State.outcomeAtEntry (s : State) (i : Nat) (outcome : TxOutcome) : State :=
  s.withEntry i fun e =>
    match e.slot with
    | .inFlight o follow =>
      (((s.setSlot i .none).outcomeByKind i e o follow outcome).serveFollowUp i follow).claimIfHomeOrphaned i
    | .none | .waiting _ | .owed _ | .queued _ => s

/-- OUTCOME_REPORT (R130): OD takes the oldest outcome report. -/
def State.outcomeReport (s : State) : State :=
  match s.paths.reports with
  | [] => s
  | (i, outcome) :: rest =>
    ({ s with paths := { s.paths with reports := rest } }.outcomeAtEntry i outcome).judgeSlots

/-! ## The meanings -/

/-- PUBLISH_RECEIVED (R47). -/
def execPublishReceived (s : State) : Out := s.taken State.publishReceived

/-- CLAIM_RECEIVED (R38). -/
def execClaimReceived (s : State) : Out := s.taken State.claimReceived

/-- YIELD_RECEIVED (R48). -/
def execYieldReceived (s : State) : Out := s.taken State.yieldReceived

/-- QUERY_RECEIVED (R72). -/
def execQueryReceived (s : State) : Out := s.taken State.queryReceived

/-- PEER_NOTICE (R50). -/
def execPeerNotice (s : State) : Out := s.taken State.peerNotice

/-- OUTCOME_REPORT (R130). -/
def execOutcomeReport (s : State) : Out := s.taken State.outcomeReport

end Sys2Proof.Machine
end

