-- ==== Sys2Proof/Machine/Requests.lean ====
section
/-! DEFINITION. The requests taken at OD, PM, TF and EU (R179 to R188). -/

namespace Sys2Proof.Machine

/-! ## Directory requests -/

/-- The owner and owner rank a READ copy shows: the own station and rank in the own states, absent in UNKNOWN (R5, R21). -/
def State.shownOwner (s : State) (e : Entry) : Option (Byte × BitVec 4) :=
  match e.ownership with
  | .consumer .unknown => none
  | .consumer (.foreign o r _) | .consumer (.orphaned o r) => some (o, r)
  | .claiming _ _ | .own | .yielding => some (s.ownNumber, e.decl.rank)

/-- The object id field of a READ response: state, owner rank, freshness, none-held (R204); bits 6..2 of its
second byte, which R204 does not list, show 0 (assumption 36). -/
def State.readField (s : State) (e : Entry) : BitVec 16 :=
  let rank : BitVec 4 := match s.shownOwner e with
    | none => 0#4
    | some (_, r) => r
  e.ownership.code ++ rank ++ (if e.version.isNone then 1#1 else 0#1) ++ 0#5 ++ e.freshness.code

/-- The response of READ: the copy of the entry (R21, R204). -/
def State.readResponse (s : State) (r : Request) (e : Entry) : Response :=
  { r.answer .ok with
    version := e.version.getD 0#8
    objectId := s.readField e
    station := match s.shownOwner e with
      | none => 0#8
      | some (o, _) => o
    length := BitVec.ofNat 8 e.value.length
    value := e.value }

/-- READ taken in a configured state (R179). -/
def State.readTaken (s : State) (r : Request) : State :=
  s.atObject r fun _ e => s.complete (s.readResponse r e)

/-- A WRITE that passes its checks: value and version in one event, a change PUBLISH, OK with the new version (R58). -/
def State.writeValue (s : State) (r : Request) (i : Nat) (e : Entry) : State :=
  let v := nextVersion e.version
  let s1 := s.modify i fun e => { e with value := r.bytes, version := some v }
  (s1.requestChange i).complete { r.answer .ok with version := v }

/-- WRITE taken in ACTIVE (R57, R180). -/
def State.writeTaken (s : State) (r : Request) : State :=
  s.atObject r fun i e =>
    match e.ownership with
    | .own => if e.decl.maxLength < r.length.toNat then s.answer r .length else s.writeValue r i e
    | .consumer _ | .claiming _ _ | .yielding => s.answer r .notOwner

/-- CLAIM taken in ACTIVE (R30, R181). -/
def State.claimTaken (s : State) (r : Request) : State :=
  s.atObject r fun i e =>
    if e.decl.role = .listen then s.answer r .notEligible
    else if e.ownership.isConsumer = false ∨ e.slot.blocksClaim = true then s.answer r .already
    else ((s.modify i fun e => { e with pendingTag := some r.tag }).startClaim i).answer r .accepted

/-- RELEASE taken in ACTIVE (R43, R45, R182). -/
def State.releaseTaken (s : State) (r : Request) : State :=
  s.atObject r fun i e =>
    match e.ownership with
    | .own => ((s.modify i fun e => { e with pendingTag := some r.tag }).startYield i none).answer r .accepted
    | .claiming _ _ =>
      (s.cancelClaim i).answer r (match e.slot with
        | .inFlight _ _ => .accepted
        | .none | .waiting _ | .owed _ | .queued _ => .ok)
    | .consumer _ | .yielding => s.answer r .notOwner

/-- QUERY taken in ACTIVE (R70, R183). -/
def State.queryTaken (s : State) (r : Request) : State :=
  s.atObject r fun i e =>
    if e.ownership.isConsumer = false ∨ e.slot.isNone = false then s.answer r .already
    else (s.requestQuery i).answer r .ok

/-! ## Peer, ring and event requests -/

/-- The response of PEER (R91, R204); an absent epoch shows as 8000h (assumption 35). -/
def Request.peerResponse (r : Request) (row : PeerRow) : Response :=
  { r.answer .ok with
    objectId := epochField row.epoch
    station := r.first
    length := 3#8
    value := [if row.present then 1#8 else 0#8, highByte (BitVec.ofNat 16 row.period), lowByte (BitVec.ofNat 16 row.period)] }

/-- PEER taken in a configured state (R91, R184). -/
def State.peerTaken (s : State) (r : Request) : State :=
  if r.first = s.ownNumber ∨ 31 < r.first.toNat then s.answer r .badRequest
  else
    match s.row? r.first.toNat with
    | none => s.answer r .badRequest
    | some row => s.complete (r.peerResponse row)

/-- The response of a TAKE_UNLISTED that returns a record, with `left` records remaining (R108, R204); bits 15..14 of the
object id field, which R204 does not list, show 0 (assumption 36). -/
def Request.unlistedResponse (r : Request) (c : Capture) (left : Nat) : Response :=
  { r.answer .ok with
    version := c.version
    objectId := (BitVec.ofNat 2 left).setWidth 16 <<< 12 ||| c.objectId.setWidth 16
    station := c.source
    length := BitVec.ofNat 8 c.value.length
    value := c.value }

/-- TAKE_UNLISTED taken in a configured state (R108, R185). -/
def State.takeUnlistedTaken (s : State) (r : Request) : State :=
  match s.tf.ring with
  | [] => s.answer r .empty
  | c :: rest => { s with tf := { s.tf with ring := rest } }.complete (r.unlistedResponse c rest.length)

/-- COUNTERS (R187): the eight counters as they stand; all set to 0 and HARVEST armed again. -/
def State.countersTaken (s : State) (r : Request) : State :=
  { s with eu := { s.eu with counters := Counters.zero, harvestArmed := true } }.complete
    { r.answer .ok with length := 16#8, value := s.eu.counters.bytes }

/-- ATTEND (R188): the mask is replaced, the previous one returned. -/
def State.attendTaken (s : State) (r : Request) : State :=
  { s with eu := { s.eu with mask := r.first.setWidth 6 } }.complete
    { r.answer .ok with length := 1#8, value := [s.eu.mask.setWidth 8] }

/-! ## The meanings -/

/-- READ (R179). -/
def execRead (s : State) : Out := s.taken fun s => s.accepting .read s.readTaken

/-- WRITE (R180). -/
def execWrite (s : State) : Out := s.taken fun s => s.accepting .write s.writeTaken

/-- CLAIM (R181). -/
def execClaim (s : State) : Out := s.taken fun s => s.accepting .claim s.claimTaken

/-- RELEASE (R182). -/
def execRelease (s : State) : Out := s.taken fun s => s.accepting .release s.releaseTaken

/-- QUERY (R183). -/
def execQuery (s : State) : Out := s.taken fun s => s.accepting .query s.queryTaken

/-- PEER (R184). -/
def execPeer (s : State) : Out := s.taken fun s => s.accepting .peer s.peerTaken

/-- TAKE_UNLISTED (R185). -/
def execTakeUnlisted (s : State) : Out := s.taken fun s => s.accepting .takeUnlisted s.takeUnlistedTaken

/-- COUNTERS (R187). -/
def execCounters (s : State) : Out := s.taken fun s => s.accepting .counters s.countersTaken

/-- ATTEND (R188). -/
def execAttend (s : State) : Out := s.taken fun s => s.accepting .attend s.attendTaken

end Sys2Proof.Machine
end

