-- ==== Sys2Proof/Machine/Station.lean ====
section
/-! DEFINITION. The Station Controller: full restarts, joining, leaving, muting, faults, LINE restart, its timers, the PRESENCE's outcome and STATUS (R143 to R160). -/

namespace Sys2Proof.Machine

/-! ## Joining -/

/-- JOIN taken in DETACHED (R147, R189). -/
def State.joinTaken (s : State) (r : Request) : State :=
  (s.enterState .listening .join r.tag).beginListening.answer r .ok

/-- One row of the join sweep: PM gives OD an absence notice for an ABSENT row other than the own (R83). -/
def State.sweepRow (s : State) (n : Nat) : State :=
  match s.row? n with
  | none => s
  | some r => if r.present = false ∧ n ≠ s.ownNumber.toNat then s.giveNotice (BitVec.ofNat 8 n) .absent else s

/-- The join sweep: PM gives its notices by rows in ascending station number (R83), and OD takes them while the station is still LISTENING,
behind the notices that waited already, since it takes notices in the order PM gives them (R82, R150, assumption 28). -/
def State.joinSweep (s : State) : State := ((List.range' 1 Config.peerRows).foldl State.sweepRow s).noticesTaken

/-- The join action at one entry: a HOME claim or a SPARE takeover timer (R53). -/
def State.joinEntry (s : State) (i : Nat) : State :=
  s.withEntry i fun e =>
    match e.ownership with
    | .consumer .unknown | .consumer (.orphaned _ _) =>
      if e.decl.role = .home then s.startClaim i
      else if e.decl.takesOver then s.startTakeover i
      else s
    | .consumer (.foreign _ rank _) => if e.decl.role = .home ∧ rank ≠ 0#4 then s.startClaim i else s
    | .claiming _ _ | .own | .yielding => s

/-- The join QUERY of one entry: a consumer entry that is NEVER or STALE, with slot NONE (R69). -/
def State.joinQuery (s : State) (i : Nat) : State :=
  s.withEntry i fun e =>
    if e.ownership.isConsumer = true ∧ e.freshness ≠ .fresh ∧ e.slot.isNone = true then s.requestQuery i else s

/-- The join actions at OD: claims and takeover timers in index order, then QUERYs in index order (R53, R69). -/
def State.joinActions (s : State) : State := (s.eachEntry State.joinEntry).eachEntry State.joinQuery

/-- A PRESENCE with status ACTIVE is requested and the presence timer starts (R87). -/
def State.startPresence (s : State) : State :=
  let s1 := s.requestPresence .active
  { s1 with sc := { s1.sc with presenceTimer := some s1.ownPeriod } }

/-- JOIN_LISTEN_EXPIRY (R150): sweep, ACTIVE, join actions and presence, the last two in either order at TS. -/
def State.joinListenExpired (s : State) (presenceFirst : Bool) : State :=
  if s.sc.state = .listening ∧ s.sc.joinTimer.due = true then
    let s1 := s.joinSweep
    let s2 := { s1 with sc := { s1.sc with joinTimer := none } }.enterState .active .listenDone 0#8
    if presenceFirst then s2.startPresence.joinActions else s2.joinActions.startPresence
  else s

/-- PRESENCE_TIMER_EXPIRY (R87): the timer restarts, and a PRESENCE is requested if the record is NONE. -/
def State.presenceExpired (s : State) : State :=
  if s.sc.presenceTimer.due = true then
    let s1 := { s with sc := { s.sc with presenceTimer := some s.ownPeriod } }
    match s.sc.presence with
    | .none => s1.requestPresence .active
    | .owed _ | .queued _ | .inFlight _ _ => s1
  else s

/-! ## Leaving -/

/-- The leave at one entry: an OWN entry yields, a claim is cancelled (R54), and a running takeover timer stops,
the station having left ACTIVE (R7). -/
def State.leaveEntry (s : State) (i : Nat) : State :=
  s.withEntry i fun e =>
    match e.ownership with
    | .own => s.startYield i none
    | .claiming _ _ => s.cancelClaim i
    | .consumer _ => s.modify i fun e => { e with takeoverTimer := none }
    | .yielding => s

/-- LEAVE taken in ACTIVE (R152). -/
def State.leaveActive (s : State) (r : Request) : State :=
  let s1 := { s with
    sc := { s.sc with leaveTag := some r.tag, presenceTimer := none }
    paths := { s.paths with clearNotice := .notGiven } }
  (((s1.enterState .leaving .leave r.tag).eachEntry State.leaveEntry).judgeSlots).answer r .accepted

/-- LEAVE taken in LISTENING or MUTED (R154). -/
def State.leaveQuiet (s : State) (r : Request) : State :=
  let s1 := { s with sc := { s.sc with joinTimer := none, muteTimer := none } }
  ((s1.enterState .detached .leave r.tag).dropPresence.goOffLine).answer r .ok

/-- LEAVE taken in a state that accepts it (R190). -/
def State.leaveTaken (s : State) (r : Request) : State :=
  if s.sc.state = .active then s.leaveActive r else s.leaveQuiet r

/-- SLOTS_CLEAR_NOTICE (R141, R153): SC requests the LEAVING PRESENCE. -/
def State.slotsClearTaken (s : State) : State :=
  if s.paths.clearNotice = .handed then
    let s1 := { s with paths := { s.paths with clearNotice := .taken } }
    if s.sc.state = .leaving then s1.requestPresence .leaving else s1
  else s

/-- The end of LEAVING (R153): flush, DETACHED with the leave tag, off the line. -/
def State.leaveDone (s : State) : State :=
  let s1 := s.flush
  let s2 := { s1 with sc := { s1.sc with leaveTag := none } }
  (s2.enterState .detached .leaveDone (s.sc.leaveTag.getD 0#8)).goOffLine

/-- PRESENCE_OUTCOME (R89): the record becomes NONE and its follow-up is requested; the LEAVING PRESENCE's outcome ends LEAVING.
An outcome that finds no telegram in flight at the record is not acted on (R153). -/
def State.presenceOutcome (s : State) : State :=
  match s.paths.presenceReport with
  | none => s
  | some _ =>
    let s1 := { s with paths := { s.paths with presenceReport := none } }
    match s.sc.presence with
    | .inFlight st follow =>
      let s2 := { s1 with sc := { s1.sc with presence := .none } }
      if st = .leaving ∧ s.sc.state = .leaving then s2.leaveDone
      else
        match follow with
        | none => s2
        | some next => s2.requestPresence next
    | .none | .owed _ | .queued _ => s1

/-! ## Muting, faults, LINE restart -/

/-- OD loses every own state, in index order (R25). -/
def State.loseAll (s : State) (cause : LossCause) : State := s.eachEntry fun s i => s.loseEntry cause i

/-- Entry to MUTED (R155). -/
def State.mute (s : State) : State :=
  let s1 := { s with sc := { s.sc with leaveTag := none, presenceTimer := none } }
  let s2 := ((s1.enterState .muted .lineFailure 0#8).transmitterOff.flush).loseAll .muted
  { s2 with sc := { s2.sc with muteTimer := some (s2.sc.muteInterval.getD 0) } }

/-- MUTED_REPORT (R155): acted on in ACTIVE and LEAVING alone. -/
def State.mutedTaken (s : State) : State :=
  if s.paths.mutedReport then
    let s1 := { s with paths := { s.paths with mutedReport := false } }
    if s.sc.state = .active ∨ s.sc.state = .leaving then s1.mute else s1
  else s

/-- MUTE_TIMER_EXPIRY (R156). -/
def State.muteExpired (s : State) : State :=
  if s.sc.state = .muted ∧ s.sc.muteTimer.due = true then
    ({ s with sc := { s.sc with muteTimer := none } }.enterState .listening .muteDone 0#8).beginListening
  else s

/-- Entry to FAULTED (R157). -/
def State.faultStation (s : State) : State :=
  let s1 := { s with sc := { s.sc with leaveTag := none, joinTimer := none, presenceTimer := none, muteTimer := none } }
  (((s1.enterState .faulted .duplicate 0#8).transmitterOff.receiverOff.flush).loseAll .fault).clearPeers

/-- DUPLICATE (R90, R157): SC takes a duplicate report; in LISTENING, ACTIVE, LEAVING and MUTED the station faults. -/
def State.duplicateTaken (s : State) : State :=
  match s.paths.duplicates with
  | 0 => s
  | n + 1 =>
    let s1 := { s with paths := { s.paths with duplicates := n } }
    if s.sc.state.receiverOn then s1.faultStation else s1

/-- The LC reset of a LINE restart, the rate kept (R126). -/
def State.resetLine (s : State) : State :=
  { s with lc := { s.lc with tx := .idle, receiving := false, abandons := 0, recovery := false } }

/-- RESTART of scope LINE taken in a state that accepts it (R158). -/
def State.restartLineTaken (s : State) (r : Request) : State :=
  let s1 := s.enterState .listening .restartLine r.tag
  let s2 := { s1 with sc := { s1.sc with leaveTag := none, joinTimer := none, presenceTimer := none, muteTimer := none } }
  ((s2.eachEntry State.lineRestartEntry).flush.clearPeers.resetLine.beginListening).answer r .ok

/-! ## STATUS -/

/-- The response of STATUS (R160, R204); an absent epoch shows as 8000h (assumption 35). -/
def State.statusResponse (s : State) (r : Request) : Response :=
  { r.answer .ok with
    version := s.il.fault.code
    objectId := epochField s.sc.epoch
    station := s.ownNumber
    length := 7#8
    value := [s.sc.state.code.setWidth 8, BitVec.ofNat 8 s.il.faultIndex, (if s.ts.backlog then 1#8 else 0#8),
              BitVec.ofNat 8 s.ts.urgent.length, BitVec.ofNat 8 s.ts.routine.length,
              BitVec.ofNat 8 s.od.urgentOwed.length, BitVec.ofNat 8 s.od.routineOwed.length] }

/-! ## The meanings -/

/-- POWER_UP (R145): a full restart, taken whatever the level of RST_N. -/
def execPowerUp (s : State) : Out := .next (s.fullRestart .reset)

/-- RST_N_ASSERT (R171): RST_N is low; the part takes no event until it is high again. -/
def execRstNAssert (s : State) : Out := .next { s with rstLow := true }

/-- RST_N_RELEASE (R145): RST_N returning high after being low is a full restart. -/
def execRstNRelease (s : State) : Out :=
  .next (if s.rstLow then { s with rstLow := false }.fullRestart .reset else s)

/-- STATUS (R186). -/
def execStatus (s : State) : Out := s.taken fun s => s.accepting .status fun r => s.complete (s.statusResponse r)

/-- JOIN (R189). -/
def execJoin (s : State) : Out := s.taken fun s => s.accepting .join s.joinTaken

/-- LEAVE (R190). -/
def execLeave (s : State) : Out := s.taken fun s => s.accepting .leave s.leaveTaken

/-- RESTART_LINE (R158): the working request is a RESTART of scope LINE. -/
def execRestartLine (s : State) : Out :=
  s.taken fun s => s.withRequest .restart fun r =>
    if r.first = 1#8 then s.accepting .restart s.restartLineTaken else s

/-- RESTART_FULL (R159): the working request is a RESTART of scope FULL; taken in every state, with no response. -/
def execRestartFull (s : State) : Out :=
  s.taken fun s => s.withRequest .restart fun r => if r.first = 2#8 then s.fullRestart .restartFull else s

/-- DUPLICATE (R157). -/
def execDuplicate (s : State) : Out := s.taken State.duplicateTaken

/-- SLOTS_CLEAR_NOTICE (R141). -/
def execSlotsClearNotice (s : State) : Out := s.taken State.slotsClearTaken

/-- PRESENCE_OUTCOME (R89). -/
def execPresenceOutcome (s : State) : Out := s.taken State.presenceOutcome

/-- MUTED_REPORT (R155). -/
def execMutedReport (s : State) : Out := s.taken State.mutedTaken

/-- JOIN_LISTEN_EXPIRY (R150). -/
def execJoinListenExpiry (presenceFirst : Bool) (s : State) : Out := s.taken fun s => s.joinListenExpired presenceFirst

/-- PRESENCE_TIMER_EXPIRY (R87). -/
def execPresenceTimerExpiry (s : State) : Out := s.taken State.presenceExpired

/-- MUTE_TIMER_EXPIRY (R156). -/
def execMuteTimerExpiry (s : State) : Out := s.taken State.muteExpired

end Sys2Proof.Machine
end

