-- ==== Sys2Proof/Machine/Timers.lean ====
section
/-! DEFINITION. The timebase and the expiries of the directory's and the peer table's timers (R7, R79, R193). -/

namespace Sys2Proof.Machine

/-- Act on the entry of an index if that timer of it is due; otherwise the expiry does not occur (R7). -/
def State.atDue (s : State) (i : Nat) (timer : Entry → Timer) (k : Entry → State) : State :=
  s.withEntry i fun e => if (timer e).due then k e else s

/-- FRESHNESS_DEADLINE_EXPIRY (R73): STALE, deadline stopped, STALE event under CHANGE or EVERY. -/
def State.freshnessExpired (s : State) (i : Nat) : State :=
  s.atDue i Entry.freshTimer fun e =>
    let s1 := s.modify i fun e => { e with freshness := .stale, freshTimer := none }
    if e.decl.notify = .none then s1 else s1.postEntry i .stale 0#8

/-- The refresh timer of an entry restarts at the full refresh period. -/
def Entry.refreshRestarted (e : Entry) : Entry := { e with refreshTimer := some e.decl.refresh }

/-- REFRESH_TIMER_EXPIRY (R60, R61): restart if the slot is busy, shed under BACKLOG, otherwise request the refresh. -/
def State.refreshExpired (s : State) (i : Nat) : State :=
  s.atDue i Entry.refreshTimer fun e =>
    if e.ownership ≠ .own then s
    else if e.slot.isNone = false then s.modify i Entry.refreshRestarted
    else if s.ts.backlog = true ∧ e.decl.cls = .routine then
      (s.bump .shed).modify i Entry.refreshRestarted
    else
      (s.modify i fun e => { e with refreshTimer := none }).publishSpaced i e (publishOf e.decl.cls true false)

/-- SPACING_TIMER_EXPIRY (R63): the timer stops and a WAITING PUBLISH is appended. -/
def State.spacingExpired (s : State) (i : Nat) : State :=
  s.atDue i Entry.spacingTimer fun e =>
    let s1 := s.modify i fun e => { e with spacingTimer := none }
    match e.slot with
    | .waiting o => s1.append i o
    | .none | .owed _ | .queued _ | .inFlight _ _ => s1

/-- CLAIM_WINDOW_EXPIRY (R36): the claimant wins. -/
def State.windowExpired (s : State) (i : Nat) : State :=
  s.atDue i Entry.windowTimer fun e =>
    match e.ownership with
    | .claiming _ _ => s.win i
    | .consumer _ | .own | .yielding => s

/-- TAKEOVER_TIMER_EXPIRY (R52): an automatic claim, or the timer anew where a telegram in flight stands against it. -/
def State.takeoverExpired (s : State) (i : Nat) : State :=
  s.atDue i Entry.takeoverTimer fun e =>
    if s.sc.state = .active ∧ e.decl.takesOver = true then
      match e.ownership with
      | .consumer .unknown | .consumer (.orphaned _ _) =>
        if e.slot.blocksClaim then s.startTakeover i else s.startClaim i
      | .consumer (.foreign _ _ _) | .claiming _ _ | .own | .yielding => s
    else s

/-- SILENCE_DEADLINE_EXPIRY (R79): the row becomes ABSENT, PEER (ABSENT) is posted and OD is given the absence notice. -/
def State.silenceExpired (s : State) (n : Nat) : State :=
  match s.row? n with
  | none => s
  | some r =>
    if r.present = true ∧ r.deadline.due = true then
      ((s.setRow n { r with present := false, deadline := none }).post (.peer .absent) (BitVec.ofNat 12 n) 0#8 (some 0#8)).giveNotice
        (BitVec.ofNat 8 n) .absent
    else s

/-- One millisecond off every running timer of an entry. -/
def Entry.tick (e : Entry) : Entry :=
  { e with freshTimer := e.freshTimer.tick, refreshTimer := e.refreshTimer.tick, spacingTimer := e.spacingTimer.tick,
           windowTimer := e.windowTimer.tick, takeoverTimer := e.takeoverTimer.tick }

/-- One millisecond off a running silence deadline. -/
def PeerRow.tick (r : PeerRow) : PeerRow := { r with deadline := r.deadline.tick }

/-- One millisecond off the wait after a failed attempt of the memory read. -/
def Phase.tick : Phase → Phase
  | .reading (.wait left) failed => .reading (.wait (left - 1)) failed
  | .reading .header failed => .reading .header failed
  | .reading .remainder failed => .reading .remainder failed
  | .awaitingLoad => .awaitingLoad
  | .installed => .installed

/-- MILLISECOND_TICK (R193): the clock advances by one, wrapping, and every running timer has one millisecond less. -/
def State.tick (s : State) : State :=
  { s with
    eu := { s.eu with clock := s.eu.clock + 1#16 }
    od := { s.od with entries := s.od.entries.map Entry.tick }
    pm := { s.pm with rows := s.pm.rows.map PeerRow.tick }
    sc := { s.sc with joinTimer := s.sc.joinTimer.tick, presenceTimer := s.sc.presenceTimer.tick, muteTimer := s.sc.muteTimer.tick }
    il := { s.il with phase := s.il.phase.tick } }

/-! ## The meanings -/

/-- FRESHNESS_DEADLINE_EXPIRY (R73). -/
def execFreshnessDeadlineExpiry (index : Nat) (s : State) : Out := s.taken fun s => s.freshnessExpired index

/-- REFRESH_TIMER_EXPIRY (R60). -/
def execRefreshTimerExpiry (index : Nat) (s : State) : Out := s.taken fun s => s.refreshExpired index

/-- SPACING_TIMER_EXPIRY (R63). -/
def execSpacingTimerExpiry (index : Nat) (s : State) : Out := s.taken fun s => s.spacingExpired index

/-- CLAIM_WINDOW_EXPIRY (R36). -/
def execClaimWindowExpiry (index : Nat) (s : State) : Out := s.taken fun s => s.windowExpired index

/-- TAKEOVER_TIMER_EXPIRY (R52). -/
def execTakeoverTimerExpiry (index : Nat) (s : State) : Out := s.taken fun s => s.takeoverExpired index

/-- SILENCE_DEADLINE_EXPIRY (R79). -/
def execSilenceDeadlineExpiry (station : Nat) (s : State) : Out := s.taken fun s => s.silenceExpired station

/-- MILLISECOND_TICK (R193). -/
def execMillisecondTick (s : State) : Out := s.taken State.tick

end Sys2Proof.Machine
end

