-- ==== Sys2Proof/Machine/Dispatch.lean ====
section
/-! DEFINITION. The meaning of every command: one arm per row of spec/opcode_table.json. -/

namespace Sys2Proof.Machine

def exec (i : Instr) (s : State) : Host.Outcome State Fault Refusal :=
  match i with
  | .powerUp => Sys2Proof.Machine.execPowerUp s
  | .rstNAssert => Sys2Proof.Machine.execRstNAssert s
  | .rstNRelease => Sys2Proof.Machine.execRstNRelease s
  | .portWrite addr byte => Sys2Proof.Machine.execPortWrite addr byte s
  | .submit => Sys2Proof.Machine.execSubmit s
  | .retire => Sys2Proof.Machine.execRetire s
  | .eventNext => Sys2Proof.Machine.execEventNext s
  | .read => Sys2Proof.Machine.execRead s
  | .write => Sys2Proof.Machine.execWrite s
  | .claim => Sys2Proof.Machine.execClaim s
  | .release => Sys2Proof.Machine.execRelease s
  | .query => Sys2Proof.Machine.execQuery s
  | .peer => Sys2Proof.Machine.execPeer s
  | .status => Sys2Proof.Machine.execStatus s
  | .counters => Sys2Proof.Machine.execCounters s
  | .takeUnlisted => Sys2Proof.Machine.execTakeUnlisted s
  | .attend => Sys2Proof.Machine.execAttend s
  | .join => Sys2Proof.Machine.execJoin s
  | .leave => Sys2Proof.Machine.execLeave s
  | .restartLine => Sys2Proof.Machine.execRestartLine s
  | .restartFull => Sys2Proof.Machine.execRestartFull s
  | .load => Sys2Proof.Machine.execLoad s
  | .loadFinish => Sys2Proof.Machine.execLoadFinish s
  | .readHeader bytes => Sys2Proof.Machine.execReadHeader bytes s
  | .readRemainder bytes => Sys2Proof.Machine.execReadRemainder bytes s
  | .attemptFailed => Sys2Proof.Machine.execAttemptFailed s
  | .attemptWaitExpiry => Sys2Proof.Machine.execAttemptWaitExpiry s
  | .lineQuiet => Sys2Proof.Machine.execLineQuiet s
  | .take age => Sys2Proof.Machine.execTake age s
  | .retryAttempt age => Sys2Proof.Machine.execRetryAttempt age s
  | .sent => Sys2Proof.Machine.execSent s
  | .collision bit level => Sys2Proof.Machine.execCollision bit level s
  | .jamEnd => Sys2Proof.Machine.execJamEnd s
  | .reception levels => Sys2Proof.Machine.execReception levels s
  | .deliveredTelegram => Sys2Proof.Machine.execDeliveredTelegram s
  | .duplicate => Sys2Proof.Machine.execDuplicate s
  | .capture => Sys2Proof.Machine.execCapture s
  | .heard => Sys2Proof.Machine.execHeard s
  | .presenceHeard => Sys2Proof.Machine.execPresenceHeard s
  | .leavingPresenceHeard => Sys2Proof.Machine.execLeavingPresenceHeard s
  | .peerNotice => Sys2Proof.Machine.execPeerNotice s
  | .publishReceived => Sys2Proof.Machine.execPublishReceived s
  | .claimReceived => Sys2Proof.Machine.execClaimReceived s
  | .yieldReceived => Sys2Proof.Machine.execYieldReceived s
  | .queryReceived => Sys2Proof.Machine.execQueryReceived s
  | .outcomeReport => Sys2Proof.Machine.execOutcomeReport s
  | .slotsClearNotice => Sys2Proof.Machine.execSlotsClearNotice s
  | .presenceOutcome => Sys2Proof.Machine.execPresenceOutcome s
  | .mutedReport => Sys2Proof.Machine.execMutedReport s
  | .freshnessDeadlineExpiry index => Sys2Proof.Machine.execFreshnessDeadlineExpiry index s
  | .refreshTimerExpiry index => Sys2Proof.Machine.execRefreshTimerExpiry index s
  | .spacingTimerExpiry index => Sys2Proof.Machine.execSpacingTimerExpiry index s
  | .claimWindowExpiry index => Sys2Proof.Machine.execClaimWindowExpiry index s
  | .takeoverTimerExpiry index => Sys2Proof.Machine.execTakeoverTimerExpiry index s
  | .silenceDeadlineExpiry station => Sys2Proof.Machine.execSilenceDeadlineExpiry station s
  | .joinListenExpiry presenceFirst => Sys2Proof.Machine.execJoinListenExpiry presenceFirst s
  | .presenceTimerExpiry => Sys2Proof.Machine.execPresenceTimerExpiry s
  | .muteTimerExpiry => Sys2Proof.Machine.execMuteTimerExpiry s
  | .lineBusy => Sys2Proof.Machine.execLineBusy s
  | .millisecondTick => Sys2Proof.Machine.execMillisecondTick s

end Sys2Proof.Machine
end

