-- ==== Sys2Proof/Safety.lean ====
section
/-! DEFINITION. What counts as a safe run, the invariants claims use, and the words statements speak of a state in. -/

namespace Sys2Proof.Machine

/-! ## Completion -/

/-- A command completes in a state: it answers a next state. The part never stops, so this is what safe means for one command. -/
def Completes (c : Instr) (s : State) : Prop := ∃ t, exec c s = .next t

/-- A run of n steps neither faults nor is refused. -/
def Safe : Nat → State → Prop
  | 0, _ => True
  | n + 1, s => ∃ t, step s = .next t ∧ Safe n t

/-! ## Words for statements -/

/-- The port is WORKING on a request of this code with these fields, and RST_N is high (R176). -/
def State.serves (s : State) (c : RequestCode) (r : Request) : Prop :=
  s.rstLow = false ∧ r.code = c.byte ∧ ∃ area, s.lp.port = .working area ∧ Request.ofArea area = r

/-- The entry of index i is e, and it is the one that carries the object id (R1). -/
def State.carries (s : State) (id : Nat) (i : Nat) (e : Entry) : Prop :=
  s.find id = some i ∧ s.entry? i = some e

/-- The oldest telegram routed to OD, with the rest behind it, reaches the entry e of index i (R1, R103). -/
def State.routed (s : State) (kind : TelegramKind) (t : Telegram) (rest : List Telegram) (i : Nat) (e : Entry) : Prop :=
  s.rstLow = false ∧ s.paths.toOd = t :: rest ∧ t.kindOf = some kind ∧ s.carries t.objectId.toNat i e

/-- The state after OD has taken the oldest telegram routed to it off its path. -/
def State.afterRouted (s : State) (rest : List Telegram) : State := { s with paths := { s.paths with toOd := rest } }

/-- The state after the port has been given a response. -/
def State.responded (s : State) (r : Response) : State := { s with lp := { s.lp with port := .done r } }

/-- s with the entry of index i replaced by e. -/
def State.put (s : State) (i : Nat) (e : Entry) : State :=
  { s with od := { s.od with entries := s.od.entries.set (i - 1) e } }

/-- s with the peer row of station n replaced by r. -/
def State.putRow (s : State) (n : Nat) (r : PeerRow) : State :=
  { s with pm := { s.pm with rows := s.pm.rows.set (n - 1) r } }

/-- The row of station n, from 1 on, is r (R77). -/
def State.rowIs (s : State) (n : Nat) (r : PeerRow) : Prop := 1 ≤ n ∧ s.pm.rows[n - 1]? = some r

/-- No entry carries the object id (R1). -/
def State.lacks (s : State) (id : Nat) : Prop := ∀ e ∈ s.od.entries, e.decl.objectId.toNat ≠ id

/-- A response with the echo and a status, every other field 0 (R178). -/
def bare (code tag : Byte) (st : Status) : Response := ⟨code, tag, st, 0#8, 0#16, 0#8, 0#8, []⟩

/-- What becomes of the CLAIM or PUBLISH of an entry whose reason lapses: withdrawn if it waits, and with the follow-up `f` if it is in flight. -/
def Slot.voided (f : FollowUp) : Slot → Slot
  | .none | .waiting _ | .owed _ | .queued _ => .none
  | .inFlight o _ => .inFlight o f

/-- The state after a telegram that waits in the slot has been withdrawn; as it stands where the slot is NONE or in flight (R134). -/
def State.withdrawWaiting (s : State) (i : Nat) (slot : Slot) : State :=
  match slot with
  | .none | .inFlight _ _ => s
  | .waiting _ | .owed _ | .queued _ => s.withdraw i

/-- The six checks of R100, spelled by the kind codes: 1 PUBLISH, 2 QUERY, 3 CLAIM, 4 YIELD, 5 PRESENCE. -/
def Telegram.PassesChecks (t : Telegram) : Prop :=
  (1 ≤ t.source.toNat ∧ t.source.toNat ≤ 31)
    ∧ (1 ≤ t.kind.toNat ∧ t.kind.toNat ≤ 5)
    ∧ (t.kind.toNat ≠ 5 → t.objectId.toNat ≠ 0 ∧ t.objectId.toNat ≠ 4095)
    ∧ t.length.toNat ≤ 32
    ∧ (t.kind.toNat = 2 ∨ t.kind.toNat = 3 ∨ t.kind.toNat = 5 → t.length.toNat = 0)
    ∧ (t.kind.toNat = 4 → t.length.toNat ≤ 1
        ∧ (t.length.toNat = 1 → ∃ n, t.payload.head? = some n ∧ 1 ≤ n.toNat ∧ n.toNat ≤ 31))
    ∧ (t.kind.toNat = 5 → (1 ≤ t.rank.toNat ∧ t.rank.toNat ≤ 3) ∧ (2 ≤ t.version.toNat ∧ t.version.toNat ≤ 200))

/-! ## The event queue -/

/-- R195, R197: at most 32 records; records are lost only while it holds 32. -/
abbrev State.EventsInv (s : State) : Prop :=
  s.eu.queue.length ≤ 32 ∧ (s.eu.lost ≠ 0#8 → s.eu.queue.length = 32)

/-! ## The queues and the owed lists -/

/-- The presence record is OWED: the owed-PRESENCE flag is set (R85). -/
def Presence.isOwed : Presence → Bool
  | .owed _ => true
  | .none | .queued _ | .inFlight _ _ => false

/-- R131, R132, R138: capacities; owed lists and the owed-PRESENCE flag only while the queue of the class is full; BACKLOG by its thresholds. -/
abbrev State.QueuesInv (s : State) : Prop :=
  s.ts.urgent.length ≤ 8 ∧ s.ts.routine.length ≤ 16
    ∧ (s.od.urgentOwed ≠ [] → s.ts.urgent.length = 8)
    ∧ (s.od.routineOwed ≠ [] → s.ts.routine.length = 16)
    ∧ (s.sc.presence.isOwed = true → s.ts.routine.length = 16)
    ∧ (12 ≤ s.ts.routine.length → s.ts.backlog = true)
    ∧ (s.ts.routine.length ≤ 4 → s.ts.backlog = false)

/-- How often the entry of index i is referenced in the URGENT queue, the ROUTINE queue, the URGENT-owed and the ROUTINE-owed list. -/
def State.references (s : State) (i : Nat) : Nat × Nat × Nat × Nat :=
  (s.ts.urgent.count i, s.ts.routine.count (.entry i), s.od.urgentOwed.count i, s.od.routineOwed.count i)

/-- The references a slot calls for (R127, R131, R132). -/
def Slot.calls : Slot → Nat × Nat × Nat × Nat
  | .queued o => match o.cls with
    | .urgent => (1, 0, 0, 0)
    | .routine => (0, 1, 0, 0)
  | .owed o => match o.cls with
    | .urgent => (0, 0, 1, 0)
    | .routine => (0, 0, 0, 1)
  | .none | .waiting _ | .inFlight _ _ => (0, 0, 0, 0)

/-- How often the PRESENCE stands in the ROUTINE queue when the presence record is so (R85, R131). -/
def Presence.calls : Presence → Nat
  | .queued _ => 1
  | .none | .owed _ | .inFlight _ _ => 0

/-- The references the entry of an index calls for; none where there is no entry. -/
def State.called (s : State) (i : Nat) : Nat × Nat × Nat × Nat :=
  match s.entry? i with
  | none => (0, 0, 0, 0)
  | some e => e.slot.calls

/-- R131: an entry is referenced exactly where its slot says, once, and nowhere else; so is the PRESENCE. -/
def State.ReferencesInv (s : State) : Prop :=
  (∀ i, s.references i = s.called i) ∧ s.ts.routine.count .presence = s.sc.presence.calls

/-! ## Buffers -/

/-- A buffer in its canonical form within its size. -/
abbrev Memory.fits (m : Memory) (size : Nat) : Prop := m.wf = true ∧ m.within size = true

/-- READING of the memory. -/
def Phase.isReading : Phase → Bool
  | .reading _ _ => true
  | .awaitingLoad | .installed => false

/-- R161, R173, R204: the request area and the working request stay within 40 bytes and the staging buffer within 659, in canonical form;
a response held in DONE fits the response area, with at most 32 value bytes; the memory is read only in LOADING, and its part 2 only with a valid entry count (R164). -/
abbrev State.BuffersInv (s : State) : Prop :=
  s.lp.request.fits 40
    ∧ (match s.lp.port with
      | .working area => area.fits 40
      | .done r => r.value.length ≤ 32
      | .ready => True)
    ∧ s.il.staging.fits 659
    ∧ (s.il.phase.isReading = true → s.sc.state = .loading)
    ∧ (match s.il.phase with
      | .reading .remainder _ => 1 ≤ s.il.staging.entryCount ∧ s.il.staging.entryCount ≤ 64
      | .reading .header _ | .reading (.wait _) _ | .awaitingLoad | .installed => True)

/-! ## Tables -/

/-- The declared fields of an entry lie in their ranges, and the role fixes the rank and the takeover flag (R2, R3). -/
abbrev Decl.InRange (d : Decl) : Prop :=
  1 ≤ d.objectId.toNat ∧ d.objectId.toNat ≤ 4094 ∧ 1 ≤ d.maxLength ∧ d.maxLength ≤ 32 ∧ 10 ≤ d.refresh ∧ d.refresh ≤ 10000
    ∧ 2 ≤ d.staleFactor ∧ d.staleFactor ≤ 8 ∧ d.spacing ≤ 1000 ∧ d.spacing % 10 = 0
    ∧ (match d.role with
      | .home => d.rank = 0#4 ∧ d.takeover = false
      | .spare => 1 ≤ d.rank.toNat ∧ d.rank.toNat ≤ 14
      | .listen => d.rank = 15#4 ∧ d.takeover = false)

/-- R1, R2, R11, R77, R106: at most 64 entries with declared fields in range, object ids unique and values no longer than the maximum;
31 peer rows; at most 4 capture records of at most 32 value bytes. A telegram on its way keeps no more payload than its length field says (R120),
and one to capture no more than 32 bytes (R100). -/
abbrev State.TablesInv (s : State) : Prop :=
  s.od.entries.length ≤ 64
    ∧ (∀ e ∈ s.od.entries, e.decl.InRange ∧ e.value.length ≤ e.decl.maxLength)
    ∧ (s.od.entries.map fun e => e.decl.objectId).Nodup
    ∧ s.pm.rows.length = 31 ∧ s.tf.ring.length ≤ 4
    ∧ (∀ t ∈ s.paths.toTf ++ s.paths.toOd, t.payload.length ≤ t.length.toNat)
    ∧ (∀ t ∈ s.paths.toRing, t.payload.length ≤ 32) ∧ (∀ c ∈ s.tf.ring, c.value.length ≤ 32)

/-! ## Ownership and the station state -/

/-- The slot of an entry fits its ownership state (R127, R128, R129); in LEAVING every claim that still stands is cancelled and in flight (R54). -/
def Entry.slotFits (e : Entry) (leaving : Bool) : Bool :=
  match e.ownership, e.slot with
  | .consumer _, .none => e.windowTimer.isNone
  | .consumer _, .owed o | .consumer _, .queued o => decide (o.kind = .query) && e.windowTimer.isNone
  | .consumer _, .inFlight o f => e.windowTimer.isNone && match o.kind, f with
    | .query, .none | .publish, .none | .claim, .none | .claim, .cancel => true
    | _, _ => false
  | .claiming _ _, .none => !leaving
  | .claiming _ _, .owed o | .claiming _ _, .queued o => decide (o.kind = .claim) && e.windowTimer.isNone && !leaving
  | .claiming _ _, .inFlight o f => decide (o.kind = .claim) && e.windowTimer.isNone && match f with
    | .none => !leaving
    | .cancel => true
    | .publish _ | .yield _ => false
  | .own, .none => true
  | .own, .waiting o | .own, .owed o | .own, .queued o => decide (o.kind = .publish)
  | .own, .inFlight o f => match o.kind, f with
    | .publish, .none | .publish, .publish _ | .claim, .publish _ => true
    | _, _ => false
  | .yielding, .owed o | .yielding, .queued o => decide (o.kind = .yield)
  | .yielding, .inFlight o f => match o.kind, f with
    | .yield, .none | .publish, .yield _ | .claim, .yield _ => true
    | _, _ => false
  | .consumer _, .waiting _ | .claiming _ _, .waiting _ | .yielding, .none | .yielding, .waiting _ => false

/-- The presence record carries the status LEAVING, now or as its follow-up. -/
def Presence.carriesLeaving : Presence → Bool
  | .owed st | .queued st => decide (st = .leaving)
  | .inFlight st follow => decide (st = .leaving) || decide (follow = some .leaving)
  | .none => false

/-- What an entry may be in a station state: an own state only in ACTIVE and LEAVING, OWN only in ACTIVE, never at a LISTEN entry (R27). -/
abbrev Entry.FitsStation (e : Entry) (st : StationState) : Prop :=
  (e.ownership.isConsumer = false → st = .active ∨ st = .leaving)
    ∧ (e.ownership = .own → st = .active)
    ∧ (e.decl.role = .listen → e.ownership.isConsumer = true)
    ∧ e.slotFits (decide (st = .leaving)) = true

/-- R26, R27, R88, R141: own states only in ACTIVE and LEAVING, slots that fit them; a LEAVING PRESENCE only once every slot is NONE;
no directory before installation. -/
abbrev State.OwnershipInv (s : State) : Prop :=
  (∀ e ∈ s.od.entries, e.FitsStation s.sc.state)
    ∧ (s.sc.presence.carriesLeaving = true → s.sc.state = .leaving ∧ s.paths.clearNotice = .taken)
    ∧ (s.sc.state = .leaving → s.paths.clearNotice ≠ .notGiven → s.slotsClear = true)
    ∧ (s.il.phase.isReading = true → s.sc.state = .loading)
    ∧ (s.sc.state = .loading ∨ s.sc.state = .unconfigured → s.od.entries = [])

end Sys2Proof.Machine
end

