-- ==== Sys2Proof/Certificates/Slice0/Obligations.lean ====
section
/-! DEFINITION. The statements for the provers: what every command of the DL241 does, from the manual's rules, and the invariants every step keeps. -/

open Sys2Proof Sys2Proof.Machine

/-! ## The machine as a whole -/

/-- A step runs the command at the front of the queue on the state with the queue's rest; on an empty queue it idles (the model's choice, assumption 3). -/
def Obligations.AStepRunsTheFrontCommandAndIdlesOnAnEmptyQueue : Prop :=
  (∀ (c : Instr) (s : State), step { s with pending := c :: s.pending } = exec c s)
    ∧ ∀ s : State, s.pending = [] → step s = .next s

/-- No command stops the part, and none touches the queue of waiting commands. That a command answers next also where its event cannot occur is the
model's choice (assumption 2), and so is the queue (assumption 4). -/
def Obligations.EveryCommandCompletesAndLeavesTheQueue : Prop :=
  ∀ (c : Instr) (s : State), ∃ t, exec c s = .next t ∧ t.pending = s.pending

/-- The restart values, block by block, and the commands that lead to them (POWER_UP, RST_N_RELEASE, RESTART_FULL).
The level of RST_N, the count of draws and the waiting commands are kept by the model's choice (assumptions 21 and 23), and that OD holds no
claim window is its choice too (assumption 30). -/
def Obligations.AFullRestartGivesEveryBlockItsRestartValues : Prop :=
  (State.reset.od = ⟨[], [], [], none⟩ ∧ State.reset.ts = ⟨[], [], false⟩
    ∧ State.reset.lc = ⟨.off, none, false, 0, false, none⟩ ∧ State.reset.tf = ⟨0#64, []⟩
    ∧ State.reset.pm.rows.length = 31
    ∧ (∀ row ∈ State.reset.pm.rows, row.present = false ∧ row.epoch = none ∧ row.deadline = none)
    ∧ State.reset.sc = ⟨.loading, none, none, none, none, none, none, .none, none, none, none, none⟩
    ∧ State.reset.il = ⟨.reading .header 0, [], .none, 0⟩ ∧ State.reset.lp = ⟨.ready, false, []⟩
    ∧ State.reset.eu = ⟨[⟨.station .loading .reset, 0#12, 0#8, some 0#8, 0#16⟩], 0#8, ⟨.none, 0#12, 0#8, some 0#8, 0#16⟩,
        63#6, ⟨0#16, 0#16, 0#16, 0#16, 0#16, 0#16, 0#16, 0#16⟩, true, 0#16⟩
    ∧ State.reset.paths = ⟨[], [], [], [], [], [], none, false, 0, .notGiven⟩)
    ∧ (∀ s : State, exec .powerUp s = .next { State.reset with rstLow := s.rstLow, draws := s.draws, pending := s.pending })
    ∧ (∀ s : State, s.rstLow = true →
        exec .rstNRelease s = .next { State.reset with rstLow := false, draws := s.draws, pending := s.pending })
    ∧ ∀ (s : State) (r : Request), s.serves .restart r → r.first = 2#8 →
        exec .restartFull s = .next { State.reset with
          draws := s.draws
          pending := s.pending
          eu := { State.reset.eu with queue := [⟨.station .loading .restartFull, 0#12, 0#8, some 0#8, 0#16⟩] } }

/-- RST_N low: the part takes no event, ATN_N and TXEN are inactive, TXD is 1 and D7..D0 are released.
Power applied and RST_N returning high are the two events it still has. -/
def Obligations.WhileRstNIsLowThePartTakesNoEvent : Prop :=
  (∀ s : State, exec .rstNAssert s = .next { s with rstLow := true })
    ∧ ∀ s : State, s.rstLow = true →
        (∀ c : Instr, c ≠ .powerUp → c ≠ .rstNRelease → exec c s = .next s)
          ∧ s.attention = false ∧ s.txen = false ∧ (∀ bit, s.txd bit = true) ∧ ∀ addr, s.portRead addr = none

/-! ## The local port -/

/-- PORT_WRITE and port reads over the whole window (R172, R204): the request area stores, 49 to 51 are the commands (assumption 22), no other
address takes a byte; a read shows the request or the response with the status values of R204, the event record with the codes of R205, the port-state
byte, and 0 elsewhere. Byte 7 of the request area reads as written and bits 6..2 of the port-state byte as 0 by the model's choice (assumptions 32 and 33). -/
def Obligations.ThePortWindowStoresRequestsAndShowsResponses : Prop :=
  (∀ (s : State) (addr : BitVec 6) (byte : Byte), s.rstLow = false →
    (addr.toNat < 40 → s.lp.request.wf = true → ∃ area : Memory,
        exec (.portWrite addr byte) s = .next { s with lp := { s.lp with request := area } }
          ∧ area.read addr.toNat = byte ∧ ∀ k, k ≠ addr.toNat → area.read k = s.lp.request.read k)
      ∧ (addr.toNat = 49 → exec (.portWrite addr byte) s = exec .submit s)
      ∧ (addr.toNat = 50 → exec (.portWrite addr byte) s = exec .retire s)
      ∧ (addr.toNat = 51 → exec (.portWrite addr byte) s = exec .eventNext s)
      ∧ (40 ≤ addr.toNat → addr.toNat ≤ 48 ∨ 52 ≤ addr.toNat → exec (.portWrite addr byte) s = .next s))
    ∧ ∀ (s : State) (addr : BitVec 6), s.rstLow = false →
        let statusValue : Status → Byte := fun st => match st with
          | .ok => 0#8
          | .accepted => 1#8
          | .noObject => 2#8
          | .notOwner => 3#8
          | .notEligible => 4#8
          | .already => 5#8
          | .length => 6#8
          | .wrongState => 7#8
          | .badRequest => 8#8
          | .empty => 9#8
          | .imageFault => 10#8
        let shown := s.eu.window
        let kindAndDetail : Byte × Byte := match shown.kind with
          | .none => (0#8, 0#8)
          | .claimOutcome d => (1#8, match d with
            | .won => 1#8
            | .lost => 2#8
            | .cancelled => 3#8
            | .failed => 4#8)
          | .releaseOutcome d => (2#8, match d with
            | .released => 1#8
            | .unannounced => 2#8)
          | .ownershipLost d => (3#8, match d with
            | .conflict => 1#8
            | .handback => 2#8
            | .muted => 3#8
            | .restart => 4#8
            | .fault => 5#8)
          | .ownerChanged d => (4#8, match d with
            | .newOwner => 1#8
            | .orphaned => 2#8)
          | .arrival => (5#8, 0#8)
          | .stale => (6#8, 0#8)
          | .fresh => (7#8, 0#8)
          | .valueRefused => (8#8, 0#8)
          | .unlisted => (9#8, 0#8)
          | .peer d => (10#8, match d with
            | .joined => 1#8
            | .absent => 2#8
            | .restarted => 3#8
            | .leaving => 4#8)
          | .backlog d => (11#8, match d with
            | .entered => 1#8
            | .cleared => 2#8)
          | .line d => (12#8, match d with
            | .muted => 1#8
            | .recovered => 2#8)
          | .station st cause => (13#8,
              16#8 * (match st with
                | .loading => 0#8
                | .unconfigured => 1#8
                | .detached => 2#8
                | .listening => 3#8
                | .active => 4#8
                | .leaving => 5#8
                | .muted => 6#8
                | .faulted => 7#8)
              + (match cause with
                | .reset => 0#8
                | .restartFull => 1#8
                | .imageFault => 2#8
                | .imageLoaded => 3#8
                | .join => 4#8
                | .listenDone => 5#8
                | .leave => 6#8
                | .leaveDone => 7#8
                | .lineFailure => 8#8
                | .muteDone => 9#8
                | .duplicate => 10#8
                | .restartLine => 11#8))
          | .harvest => (14#8, 0#8)
          | .lost count => (15#8, count)
        let idField : BitVec 16 := (if shown.version = none then 1#1 else 0#1) ++ 0#3 ++ shown.id
        (∀ q, s.lp.port = .done q → addr.toNat < 40 → s.portRead addr = some
            (([q.code, q.tag, statusValue q.status, q.version, highByte q.objectId, lowByte q.objectId, q.station, q.length]
              ++ q.value).getD addr.toNat 0#8))
          ∧ ((∀ q, s.lp.port ≠ .done q) → addr.toNat < 40 → s.portRead addr = some (s.lp.request.read addr.toNat))
          ∧ (40 ≤ addr.toNat → addr.toNat < 48 → s.portRead addr = some
              ([kindAndDetail.1, kindAndDetail.2, highByte idField, lowByte idField, shown.tag, shown.version.getD 0#8,
                highByte shown.time, lowByte shown.time].getD (addr.toNat - 40) 0#8))
          ∧ (addr.toNat = 48 → s.portRead addr = some
              ((match s.lp.port with
                | .ready => 0#8
                | .working _ => 1#8
                | .done _ => 2#8) + (if s.lp.submitIgnored then 128#8 else 0#8)))
          ∧ (49 ≤ addr.toNat → s.portRead addr = some 0#8)

/-- SUBMIT (R174) with LP's checks (R176) made in the same event: the request is copied and works, or is answered BAD_REQUEST;
in WORKING and DONE the write only sets the submit-ignored flag. -/
def Obligations.SubmitStartsAReadyPortAndIsFlaggedOtherwise : Prop :=
  ∀ s : State, s.rstLow = false →
    (s.lp.port = .ready →
      let code := (s.lp.request.read 0).toNat
      let tag := s.lp.request.read 1
      let scope := (s.lp.request.read 5).toNat
      let good := (1 ≤ code ∧ code ≤ 14) ∧ (code = 13 → scope = 1 ∨ scope = 2) ∧ (code = 3 ∨ code = 4 → tag ≠ 0#8)
      (good → exec .submit s = .next { s with lp := { s.lp with port := .working s.lp.request, submitIgnored := false } })
        ∧ (¬ good → exec .submit s = .next { s with lp := { s.lp with
            port := .done (bare (s.lp.request.read 0) tag .badRequest), submitIgnored := false } }))
      ∧ (s.lp.port ≠ .ready → exec .submit s = .next { s with lp := { s.lp with submitIgnored := true } })

/-- RETIRE (R175), and a SUBMIT and a RETIRE in either order while DONE. Outside DONE no response is held, so READY is the cleared area. -/
def Obligations.RetireClearsADoneResponseAndIsIgnoredOtherwise : Prop :=
  ∀ s : State, s.rstLow = false →
    (∀ q, s.lp.port = .done q →
      exec .retire s = .next { s with lp := { s.lp with port := .ready } }
        ∧ (∃ t, exec .submit s = .next t
            ∧ exec .retire t = .next { s with lp := { s.lp with port := .ready, submitIgnored := true } })
        ∧ ∃ t u, exec .retire s = .next t ∧ exec .submit t = .next u ∧ u.lp.port ≠ .ready ∧ u.lp.submitIgnored = false)
      ∧ (s.lp.port = .ready → exec .retire s = .next s)
      ∧ ∀ area, s.lp.port = .working area → exec .retire s = .next s

/-! ## The Event Unit -/

/-- EVENT_NEXT (R196, R197): the head moves to the window, a LOST record is appended where records were lost; NONE from an empty queue.
No other command but a full restart changes the window. -/
def Obligations.EventNextMovesTheHeadIntoTheWindow : Prop :=
  (∀ s : State, s.rstLow = false →
    (s.eu.queue = [] →
      exec .eventNext s = .next { s with eu := { s.eu with window := ⟨.none, 0#12, 0#8, some 0#8, 0#16⟩ } })
      ∧ ∀ r rest, s.eu.queue = r :: rest →
          (s.eu.lost = 0#8 → exec .eventNext s = .next { s with eu := { s.eu with queue := rest, window := r } })
            ∧ (s.eu.lost ≠ 0#8 → exec .eventNext s = .next { s with eu := { s.eu with
                queue := rest ++ [⟨.lost s.eu.lost, (s.sc.number.getD 0#8).setWidth 12, 0#8, some 0#8, s.eu.clock⟩]
                window := r
                lost := 0#8 } }))
    ∧ ∀ (c : Instr) (s t : State), exec c s = .next t → c ≠ .powerUp → c ≠ .rstNRelease → c ≠ .restartFull → c ≠ .eventNext →
        (∀ addr byte, c = .portWrite addr byte → addr.toNat ≠ 51) → t.eu.window = s.eu.window

/-- A posting (R195) and a counter's increment with HARVEST (R199), as the operations every other statement names do them. -/
def Obligations.PostingStampsARecordAndCountingHarvestsOnce : Prop :=
  (∀ (s : State) (kind : EventKind) (id : BitVec 12) (tag : Byte) (version : Option Byte),
    (s.eu.queue.length < 32 →
      s.post kind id tag version = { s with eu := { s.eu with queue := s.eu.queue ++ [⟨kind, id, tag, version, s.eu.clock⟩] } })
      ∧ (32 ≤ s.eu.queue.length → s.eu.lost.toNat < 255 →
          s.post kind id tag version = { s with eu := { s.eu with lost := s.eu.lost + 1#8 } })
      ∧ (32 ≤ s.eu.queue.length → s.eu.lost.toNat = 255 → s.post kind id tag version = s))
    ∧ ∀ (s : State) (k : Counter),
        let old := s.eu.counters.get k
        let counted := { s with eu := { s.eu with counters := s.eu.counters.set k (old + 1#16) } }
        (old.toNat = 65535 → s.bump k = s)
          ∧ (old.toNat ≠ 65535 → ¬ (old.toNat = 49151 ∧ s.eu.harvestArmed = true) → s.bump k = counted)
          ∧ (old.toNat = 49151 → s.eu.harvestArmed = true →
              s.bump k = { counted with eu := { counted.eu with harvestArmed := false } }.post .harvest s.ownId 0#8 (some 0#8))
          ∧ (∀ v, (s.eu.counters.set k v).get k = v)
          ∧ ∀ (j : Counter) v, j ≠ k → (s.eu.counters.set k v).get j = s.eu.counters.get j

/-- ATN_N (R198, R194): active exactly while a record of an enabled category stands in the queue or the port is DONE with PORT enabled.
Mask positions 0 to 5 are OWNERSHIP, DATA, PEERS, LINE, STATION and PORT (R204). -/
def Obligations.AttentionFollowsTheQueueTheMaskAndThePort : Prop :=
  ∀ s : State, s.attention = true ↔ s.rstLow = false ∧
    ((∃ r ∈ s.eu.queue, match r.kind with
        | .none => False
        | .claimOutcome _ | .releaseOutcome _ | .ownershipLost _ | .ownerChanged _ => s.eu.mask.getLsbD 0 = true
        | .arrival | .stale | .fresh | .valueRefused | .unlisted => s.eu.mask.getLsbD 1 = true
        | .peer _ => s.eu.mask.getLsbD 2 = true
        | .backlog _ | .line _ => s.eu.mask.getLsbD 3 = true
        | .station _ _ | .harvest | .lost _ => s.eu.mask.getLsbD 4 = true)
      ∨ ((∃ q, s.lp.port = .done q) ∧ s.eu.mask.getLsbD 5 = true))

/-- COUNTERS (R187) and ATTEND (R188).
That LP completes in the same step is the model's reading (assumption 31). -/
def Obligations.CountersAreReturnedAndClearedAndTheMaskIsReplaced : Prop :=
  (∀ (s : State) (r : Request), s.serves .counters r →
    let c := s.eu.counters
    exec .counters s = .next { s with
      eu := { s.eu with counters := ⟨0#16, 0#16, 0#16, 0#16, 0#16, 0#16, 0#16, 0#16⟩, harvestArmed := true }
      lp := { s.lp with port := .done { bare 8#8 r.tag .ok with
        length := 16#8
        value := [highByte c.txSent, lowByte c.txSent, highByte c.rxGood, lowByte c.rxGood, highByte c.rxBad, lowByte c.rxBad,
          highByte c.collisions, lowByte c.collisions, highByte c.abandoned, lowByte c.abandoned, highByte c.shed, lowByte c.shed,
          highByte c.oldVersion, lowByte c.oldVersion, highByte c.refused, lowByte c.refused] } } })
    ∧ (∀ (s : State) (r : Request), s.serves .attend r →
        exec .attend s = .next { s with
          eu := { s.eu with mask := r.first.setWidth 6 }
          lp := { s.lp with port := .done { bare 10#8 r.tag .ok with length := 1#8, value := [s.eu.mask.setWidth 8] } } })
    ∧ State.reset.eu.mask = 63#6

/-! ## Requests -/

/-- The table of R177: outside its states a request is answered WRONG_STATE and changes nothing else; in them it is not.
RESTART of scope FULL is taken in every state.
That LP completes in the same step is the model's reading (assumption 31). -/
def Obligations.EachRequestIsAcceptedInTheStatesOfTheTable : Prop :=
  let configured : List StationState := [.detached, .listening, .active, .leaving, .muted, .faulted]
  let every : List StationState := .loading :: .unconfigured :: configured
  let table : List (Instr × RequestCode × List StationState) :=
    [(.read, .read, configured), (.peer, .peer, configured), (.takeUnlisted, .takeUnlisted, configured),
     (.write, .write, [.active]), (.claim, .claim, [.active]), (.release, .release, [.active]), (.query, .query, [.active]),
     (.join, .join, [.detached]), (.leave, .leave, [.listening, .active, .muted]),
     (.load, .load, [.unconfigured]), (.loadFinish, .load, [.unconfigured]), (.restartLine, .restart, configured),
     (.status, .status, every), (.counters, .counters, every), (.attend, .attend, every)]
  (∀ (c : Instr) (code : RequestCode) (states : List StationState), (c, code, states) ∈ table →
    ∀ (s : State) (r : Request), s.serves code r →
      (c = .load → r.first.getLsbD 0 = false) → (c = .loadFinish → r.first.getLsbD 0 = true) → (c = .restartLine → r.first = 1#8) →
        (s.sc.state ∉ states → exec c s = .next (s.responded (bare r.code r.tag .wrongState)))
          ∧ (s.sc.state ∈ states → ∃ t q, exec c s = .next t ∧ t.lp.port = .done q ∧ q.status ≠ .wrongState))
    ∧ ∀ (s : State) (r : Request), s.serves .restart r → r.first = 2#8 → ∃ t, exec .restartFull s = .next t ∧ t.lp.port = .ready ∧ t.sc.state = .loading

/-- READ (R179, R21): the copy of the entry, with the encodings of R204; the rank bits are 0 in UNKNOWN (assumption 18).
Bits 6..2 of byte 5, which R204 does not list, are 0 by the model's reading (assumption 36).
That LP completes in the same step is the model's reading (assumption 31). -/
def Obligations.ReadAnswersACopyOfTheEntry : Prop :=
  ∀ (s : State) (r : Request), s.serves .read r → s.sc.state ≠ .loading → s.sc.state ≠ .unconfigured →
    (s.lacks r.objectId.toNat → exec .read s = .next (s.responded (bare 1#8 r.tag .noObject)))
      ∧ ∀ i e, s.carries r.objectId.toNat i e →
          let own := s.sc.number.getD 0#8
          let shown : BitVec 4 × Byte × BitVec 4 := match e.ownership with
            | .consumer .unknown => (0#4, 0#8, 0#4)
            | .consumer (.foreign o k _) => (1#4, o, k)
            | .consumer (.orphaned o k) => (2#4, o, k)
            | .claiming _ _ => (3#4, own, e.decl.rank)
            | .own => (4#4, own, e.decl.rank)
            | .yielding => (5#4, own, e.decl.rank)
          let fresh : BitVec 2 := match e.freshness with
            | .never => 0#2
            | .fresh => 1#2
            | .stale => 2#2
          exec .read s = .next (s.responded
            { code := 1#8
              tag := r.tag
              status := .ok
              version := e.version.getD 0#8
              objectId := shown.1 ++ shown.2.2 ++ (if e.version = none then 1#1 else 0#1) ++ 0#5 ++ fresh
              station := shown.2.1
              length := BitVec.ofNat 8 e.value.length
              value := e.value })

/-- The checks of WRITE in their order (R57), each refusal changing nothing; then the value and version in one event, OK with the new version, and
the change PUBLISH by what the slot holds (R58). A WRITE of any length up to the maximum, 0 included, is accepted.
That LP completes in the same step is the model's reading (assumption 31). -/
def Obligations.WriteIsCheckedInOrderThenStoresTheValueAndRequestsAPublish : Prop :=
  (∀ (s : State) (r : Request), s.serves .write r →
    (s.sc.state ≠ .active → exec .write s = .next (s.responded (bare 2#8 r.tag .wrongState)))
      ∧ (s.sc.state = .active → s.lacks r.objectId.toNat → exec .write s = .next (s.responded (bare 2#8 r.tag .noObject)))
      ∧ ∀ i e, s.sc.state = .active → s.carries r.objectId.toNat i e →
          (e.ownership ≠ .own → exec .write s = .next (s.responded (bare 2#8 r.tag .notOwner)))
            ∧ (e.ownership = .own → e.decl.maxLength < r.length.toNat →
                exec .write s = .next (s.responded (bare 2#8 r.tag .length)))
            ∧ (e.ownership = .own → r.length.toNat ≤ e.decl.maxLength →
                ∃ t q, exec .write s = .next t ∧ t.lp.port = .done q ∧ q.status = .ok))
    ∧ ∀ (s : State) (r : Request) (i : Nat) (e : Entry), s.serves .write r → s.sc.state = .active →
        s.carries r.objectId.toNat i e → e.ownership = .own → r.length.toNat ≤ e.decl.maxLength →
          let v := match e.version with
            | none => 0#8
            | some held => held + 1#8
          let written := { e with value := r.value.take r.length.toNat, version := some v }
          let change : Outbound := ⟨.publish, e.decl.cls, false, false, none⟩
          let after := match e.slot with
            | .none => match e.spacingTimer with
              | none => (s.put i written).append i change
              | some _ => s.put i { written with slot := .waiting change }
            | .waiting o => s.put i { written with slot := .waiting { o with refresh := false } }
            | .queued o => s.put i { written with slot := .queued { o with refresh := false } }
            | .owed o => s.put i { written with slot := .owed { o with refresh := false } }
            | .inFlight o .none => s.put i { written with slot := .inFlight o (.publish e.decl.cls) }
            | .inFlight _ (.publish _) | .inFlight _ (.yield _) | .inFlight _ .cancel => s.put i written
          exec .write s = .next (after.responded { bare 2#8 r.tag .ok with version := v })

/-- CLAIM (R30, R181): its checks in order; otherwise ACCEPTED, the pending tag is the request's and a claim starts.
That LP completes in the same step is the model's reading (assumption 31). -/
def Obligations.AClaimRequestIsCheckedAndStartsAClaim : Prop :=
  ∀ (s : State) (r : Request), s.serves .claim r →
    (s.sc.state ≠ .active → exec .claim s = .next (s.responded (bare 3#8 r.tag .wrongState)))
      ∧ (s.sc.state = .active → s.lacks r.objectId.toNat → exec .claim s = .next (s.responded (bare 3#8 r.tag .noObject)))
      ∧ ∀ i e, s.sc.state = .active → s.carries r.objectId.toNat i e →
          (e.decl.role = .listen → exec .claim s = .next (s.responded (bare 3#8 r.tag .notEligible)))
            ∧ (e.decl.role ≠ .listen → (∀ v, e.ownership ≠ .consumer v) →
                exec .claim s = .next (s.responded (bare 3#8 r.tag .already)))
            ∧ ∀ v, e.decl.role ≠ .listen → e.ownership = .consumer v →
                (∀ o f, e.slot = .inFlight o f → ¬ (o.kind = .claim ∧ f = .cancel) →
                    exec .claim s = .next (s.responded (bare 3#8 r.tag .already)))
                  ∧ ((∀ o f, e.slot = .inFlight o f → o.kind = .claim ∧ f = .cancel) →
                      exec .claim s = .next
                        (((s.put i { e with pendingTag := some r.tag }).startClaim i).responded (bare 3#8 r.tag .accepted)))

/-- RELEASE (R43, R45, R182): an OWN entry yields without successor, a CLAIMING entry's claim is cancelled, every other entry refuses.
That LP completes in the same step is the model's reading (assumption 31). -/
def Obligations.AReleaseYieldsAnOwnEntryAndCancelsAClaim : Prop :=
  ∀ (s : State) (r : Request), s.serves .release r →
    (s.sc.state ≠ .active → exec .release s = .next (s.responded (bare 4#8 r.tag .wrongState)))
      ∧ (s.sc.state = .active → s.lacks r.objectId.toNat → exec .release s = .next (s.responded (bare 4#8 r.tag .noObject)))
      ∧ ∀ i e, s.sc.state = .active → s.carries r.objectId.toNat i e →
          let yielded := { e with ownership := .yielding, pendingTag := some r.tag, refreshTimer := none }
          let yieldOutbound : Outbound := ⟨.yield, .urgent, false, false, none⟩
          (e.ownership = .own → exec .release s = .next
              ((match e.slot with
                | .none => (s.put i yielded).append i yieldOutbound
                | .waiting _ | .owed _ | .queued _ => ((s.put i yielded).withdraw i).append i yieldOutbound
                | .inFlight o _ => s.put i { yielded with slot := .inFlight o (.yield none) }).responded (bare 4#8 r.tag .accepted)))
            ∧ (∀ prior changed, e.ownership = .claiming prior changed → exec .release s = .next
                (match e.slot with
                  | .inFlight o _ => (s.put i { e with slot := .inFlight o .cancel }).responded (bare 4#8 r.tag .accepted)
                  | .none | .waiting _ | .owed _ | .queued _ =>
                    (((s.withdraw i).returnToPrior i .cancelled).takeoverIfOrphaned i).responded (bare 4#8 r.tag .ok)))
            ∧ (e.ownership = .yielding ∨ (∃ v, e.ownership = .consumer v) →
                exec .release s = .next (s.responded (bare 4#8 r.tag .notOwner)))

/-- QUERY (R70, R183): refused in an own state or with a telegram in the slot, otherwise a ROUTINE QUERY is appended.
That LP completes in the same step is the model's reading (assumption 31). -/
def Obligations.AQueryRequestAppendsAQueryForAFreeConsumerEntry : Prop :=
  ∀ (s : State) (r : Request), s.serves .query r →
    (s.sc.state ≠ .active → exec .query s = .next (s.responded (bare 5#8 r.tag .wrongState)))
      ∧ (s.sc.state = .active → s.lacks r.objectId.toNat → exec .query s = .next (s.responded (bare 5#8 r.tag .noObject)))
      ∧ ∀ i e, s.sc.state = .active → s.carries r.objectId.toNat i e →
          ((∀ v, e.ownership ≠ .consumer v) → exec .query s = .next (s.responded (bare 5#8 r.tag .already)))
            ∧ (e.slot ≠ .none → exec .query s = .next (s.responded (bare 5#8 r.tag .already)))
            ∧ ∀ v, e.ownership = .consumer v → e.slot = .none →
                exec .query s = .next ((s.append i ⟨.query, .routine, false, false, none⟩).responded (bare 5#8 r.tag .ok))

/-- PEER (R184, R91): BAD_REQUEST outside 1..31 and for the own number, otherwise the row as it stands.
Bits 14..0 of the field of an absent epoch are 0 by the model's choice (assumption 35).
That LP completes in the same step is the model's reading (assumption 31). -/
def Obligations.PeerAnswersARowAsItStands : Prop :=
  ∀ (s : State) (r : Request), s.serves .peer r → s.sc.state ≠ .loading → s.sc.state ≠ .unconfigured →
    (r.first = 0#8 ∨ 31 < r.first.toNat ∨ s.sc.number = some r.first →
        exec .peer s = .next (s.responded (bare 6#8 r.tag .badRequest)))
      ∧ ∀ row, r.first.toNat ≤ 31 → s.sc.number ≠ some r.first → s.rowIs r.first.toNat row →
          exec .peer s = .next (s.responded { bare 6#8 r.tag .ok with
            objectId := match row.epoch with
              | none => 0x8000#16
              | some epoch => epoch.setWidth 16
            station := r.first
            length := 3#8
            value := [if row.present then 1#8 else 0#8, highByte (BitVec.ofNat 16 row.period), lowByte (BitVec.ofNat 16 row.period)] })

/-- TAKE_UNLISTED (R108, R185): the oldest record leaves the ring and is returned with the number left, EMPTY from an empty ring.
CAPTURE (R107): the ring takes a PUBLISH, the oldest of four records making room, and UNLISTED is posted.
Bits 15..14 of the response's object id field, which R204 does not list, are 0 by the model's reading (assumption 36).
That LP completes in the same step is the model's reading (assumption 31). -/
def Obligations.TheRingKeepsFourCapturesAndTakeUnlistedReturnsTheOldest : Prop :=
  (∀ (s : State) (r : Request), s.serves .takeUnlisted r →
    (s.sc.state = .loading ∨ s.sc.state = .unconfigured → exec .takeUnlisted s = .next (s.responded (bare 9#8 r.tag .wrongState)))
      ∧ (s.sc.state ≠ .loading → s.sc.state ≠ .unconfigured →
          (s.tf.ring = [] → exec .takeUnlisted s = .next (s.responded (bare 9#8 r.tag .empty)))
            ∧ ∀ c rest, s.tf.ring = c :: rest → rest.length ≤ 3 →
                exec .takeUnlisted s = .next ({ s with tf := { s.tf with ring := rest } }.responded
                  { code := 9#8
                    tag := r.tag
                    status := .ok
                    version := c.version
                    objectId := BitVec.ofNat 4 rest.length ++ c.objectId
                    station := c.source
                    length := BitVec.ofNat 8 c.value.length
                    value := c.value })))
    ∧ ∀ (s : State) (t : Telegram) (rest : List Telegram), s.rstLow = false → s.paths.toRing = t :: rest → s.tf.ring.length ≤ 4 →
        let record : Capture := ⟨t.objectId, t.source, t.version, t.payload⟩
        exec .capture s = .next ({ s with
          paths := { s.paths with toRing := rest }
          tf := { s.tf with ring := (if s.tf.ring.length = 4 then s.tf.ring.drop 1 else s.tf.ring) ++ [record] } }.post
            .unlisted t.objectId 0#8 (some t.version))

/-- STATUS (R186, R160) in every station state, with the codes of R203 and R204.
Bits 14..0 of the field of an absent epoch are 0 by the model's choice (assumption 35).
That LP completes in the same step is the model's reading (assumption 31). -/
def Obligations.StatusAnswersTheStationAsItStands : Prop :=
  ∀ (s : State) (r : Request), s.serves .status r →
    let stateCode : Byte := match s.sc.state with
      | .loading => 0#8
      | .unconfigured => 1#8
      | .detached => 2#8
      | .listening => 3#8
      | .active => 4#8
      | .leaving => 5#8
      | .muted => 6#8
      | .faulted => 7#8
    let faultCode : Byte := match s.il.fault with
      | .none => 0#8
      | .noMemory => 1#8
      | .badFormat => 2#8
      | .badCount => 3#8
      | .badCheck => 4#8
      | .badStation => 5#8
      | .badRate => 6#8
      | .badTiming => 7#8
      | .badEntry => 8#8
      | .duplicateObject => 9#8
    exec .status s = .next (s.responded { bare 7#8 r.tag .ok with
      version := faultCode
      objectId := match s.sc.epoch with
        | none => 0x8000#16
        | some epoch => epoch.setWidth 16
      station := s.sc.number.getD 0#8
      length := 7#8
      value := [stateCode, BitVec.ofNat 8 s.il.faultIndex, if s.ts.backlog then 1#8 else 0#8, BitVec.ofNat 8 s.ts.urgent.length,
        BitVec.ofNat 8 s.ts.routine.length, BitVec.ofNat 8 s.od.urgentOwed.length, BitVec.ofNat 8 s.od.routineOwed.length] })

/-! ## The station's life cycle -/

/-- JOIN (R147, R189), the end of the mute interval (R156), and entry to LISTENING (R148, R84, R126): a new epoch, unlike the one before,
receiver and transmitter on, the JOINING PRESENCE, the join-listen timer. The count of draws is the model's (assumption 8), and the line
view of an entry from MUTED is read from R126 (assumption 20). A mute timer that is stopped or not due does not expire (R143): the command leaves the
state as it is, by the model's choice (assumption 2).
That LP completes in the same step is the model's reading (assumption 31). -/
def Obligations.JoinAndTheEndOfAMuteEnterListening : Prop :=
  (∀ (s : State) (r : Request), s.serves .join r → s.sc.state = .detached →
    exec .join s = .next
      ((({ s with sc := { s.sc with state := .listening } }.post (.station .listening .join) s.ownId r.tag (some 0#8)).beginListening).responded
        (bare 11#8 r.tag .ok)))
    ∧ (∀ s : State, s.rstLow = false → s.sc.state = .muted → s.sc.muteTimer = some 0 →
        exec .muteTimerExpiry s = .next
          ({ s with sc := { s.sc with state := .listening, muteTimer := none } }.post
            (.station .listening .muteDone) s.ownId 0#8 (some 0#8)).beginListening)
    ∧ (∀ s : State, s.sc.state ≠ .muted ∨ s.sc.muteTimer ≠ some 0 → exec .muteTimerExpiry s = .next s)
    ∧ ∀ s : State, ∃ epoch, s.sc.epoch ≠ some epoch
        ∧ s.beginListening = { s with
            draws := s.draws + 1
            lc := { s.lc with tx := .idle, view := some .busy }
            sc := { s.sc with epoch := some epoch, joinTimer := some (s.sc.joinListen.getD 0) } }.requestPresence .joining

/-- LEAVE (R152, R154, R190): from ACTIVE into LEAVING, with the leave at every entry (R54); from LISTENING and MUTED to DETACHED at once.
That going off the line drops what was received and not yet taken is the model's reading (assumption 11), and so is the outcome report that the dropped
PRESENCE loses (assumption 12) and LP's completion in the same step (assumption 31). -/
def Obligations.ALeaveStartsLeavingOrGoesOffTheLine : Prop :=
  (∀ (s : State) (r : Request), s.serves .leave r → s.sc.state = .active →
    let entered := { s with
      sc := { s.sc with state := .leaving, leaveTag := some r.tag, presenceTimer := none }
      paths := { s.paths with clearNotice := .notGiven } }.post (.station .leaving .leave) s.ownId r.tag (some 0#8)
    exec .leave s = .next (((entered.eachEntry State.leaveEntry).judgeSlots).responded (bare 12#8 r.tag .accepted)))
    ∧ (∀ (s : State) (r : Request), s.serves .leave r → s.sc.state = .listening ∨ s.sc.state = .muted →
        let entered := { s with sc := { s.sc with state := .detached, joinTimer := none, muteTimer := none } }.post
          (.station .detached .leave) s.ownId r.tag (some 0#8)
        exec .leave s = .next ((entered.dropPresence.goOffLine).responded (bare 12#8 r.tag .ok)))
    ∧ (∀ (s : State) (i : Nat) (e : Entry), s.entry? i = some e →
        let yielded := { e with ownership := .yielding, refreshTimer := none }
        let yieldOutbound : Outbound := ⟨.yield, .urgent, false, false, none⟩
        (e.ownership = .own → s.leaveEntry i = match e.slot with
            | .none => (s.put i yielded).append i yieldOutbound
            | .waiting _ | .owed _ | .queued _ => ((s.put i yielded).withdraw i).append i yieldOutbound
            | .inFlight o _ => s.put i { yielded with slot := .inFlight o (.yield none) })
          ∧ (∀ prior changed, e.ownership = .claiming prior changed → s.sc.state = .leaving → s.leaveEntry i = match e.slot with
              | .inFlight o _ => s.put i { e with slot := .inFlight o .cancel }
              | .none | .waiting _ | .owed _ | .queued _ => (s.withdraw i).returnToPrior i .cancelled)
          ∧ (e.ownership = .yielding → s.leaveEntry i = s)
          ∧ ∀ v, e.ownership = .consumer v → s.leaveEntry i = s.put i { e with takeoverTimer := none })
    ∧ ∀ s : State,
        s.goOffLine = { s with
          lc := { s.lc with tx := .off, abandons := 0, view := none, receiving := false }
          paths := { s.paths with toTf := [], toPm := [], toOd := [], toRing := [], notices := [] }
          pm := { s.pm with rows := s.pm.rows.map fun _ => ⟨false, none, s.sc.period.getD 0, none⟩ }
          od := { s.od with entries := s.od.entries.map fun e => { e with
            freshness := if e.freshness = .never then .never else .stale
            freshTimer := none, refreshTimer := none, spacingTimer := none, windowTimer := none, takeoverTimer := none } } }

/-- The end of LEAVING (R141, R88, R89, R153) and the flush (R140): the slots-clear notice is judged once every slot is NONE, its taking
requests the LEAVING PRESENCE, whose outcome, sent or abandoned, flushes and leaves the line; any other PRESENCE's outcome serves its follow-up.
That the flush also drops the outcome reports given and not yet taken is the model's reading (assumption 12). -/
def Obligations.LeavingEndsWithTheOutcomeOfTheLeavingPresence : Prop :=
  (∀ s : State,
    ((s.sc.state = .leaving ∧ s.paths.clearNotice = .notGiven ∧ ∀ e ∈ s.od.entries, e.slot = .none) →
        s.judgeSlots = { s with paths := { s.paths with clearNotice := .handed } })
      ∧ (¬ (s.sc.state = .leaving ∧ s.paths.clearNotice = .notGiven ∧ ∀ e ∈ s.od.entries, e.slot = .none) → s.judgeSlots = s))
    ∧ (∀ s : State, s.rstLow = false → s.sc.state = .leaving → s.paths.clearNotice = .handed →
        exec .slotsClearNotice s = .next ({ s with paths := { s.paths with clearNotice := .taken } }.requestPresence .leaving))
    ∧ (∀ (s : State) (outcome : TxOutcome) (st : PresenceStatus) (follow : Option PresenceStatus), s.rstLow = false →
        s.paths.presenceReport = some outcome → s.sc.presence = .inFlight st follow →
        (st = .leaving → s.sc.state = .leaving → exec .presenceOutcome s = .next
            ({ s.flush with sc := { s.sc with state := .detached, presence := .none, leaveTag := none } }.post
              (.station .detached .leaveDone) s.ownId (s.sc.leaveTag.getD 0#8) (some 0#8)).goOffLine)
          ∧ (st ≠ .leaving ∨ s.sc.state ≠ .leaving →
              let cleared := { s with paths := { s.paths with presenceReport := none }, sc := { s.sc with presence := .none } }
              exec .presenceOutcome s = .next (match follow with
                | none => cleared
                | some next => cleared.requestPresence next)))
    ∧ ∀ s : State, s.flush = { s with
        od := { s.od with entries := s.od.entries.map fun e => { e with slot := .none }, urgentOwed := [], routineOwed := [] }
        ts := ⟨[], [], false⟩
        sc := { s.sc with presence := .none }
        lc := { s.lc with tx := match s.lc.tx with
          | .off => .off
          | .halted => .halted
          | .idle | .transmitting _ | .jamming _ | .retryWait _ _ => .idle }
        paths := { s.paths with reports := [], presenceReport := none } }

/-- The MUTED report (R155) and a duplicate report (R157), with what each does at an entry (R25). That a report waits until SC takes it and acts by the
state found then is assumption 13, that turning the receiver off drops what was received and not yet taken is assumption 11, and that the flush drops
outcome reports is assumption 12: the model's readings. -/
def Obligations.AMuteAndAFaultGiveUpEveryOwnState : Prop :=
  (∀ s : State, s.rstLow = false → s.paths.mutedReport = true →
    (s.sc.state = .active ∨ s.sc.state = .leaving →
        let entered := { s with
          paths := { s.paths with mutedReport := false }
          sc := { s.sc with state := .muted, leaveTag := none, presenceTimer := none } }.post
            (.station .muted .lineFailure) s.ownId 0#8 (some 0#8)
        let lost := ({ entered with lc := { entered.lc with tx := .off, abandons := 0 } }.flush).eachEntry fun s i => s.loseEntry .muted i
        exec .mutedReport s = .next { lost with sc := { lost.sc with muteTimer := some (s.sc.muteInterval.getD 0) } })
      ∧ (s.sc.state ≠ .active → s.sc.state ≠ .leaving →
          exec .mutedReport s = .next { s with paths := { s.paths with mutedReport := false } }))
    ∧ (∀ (s : State) (n : Nat), s.rstLow = false → s.paths.duplicates = n + 1 →
        (s.sc.state = .listening ∨ s.sc.state = .active ∨ s.sc.state = .leaving ∨ s.sc.state = .muted →
            let entered := { s with
              paths := { s.paths with duplicates := n }
              sc := { s.sc with state := .faulted, leaveTag := none, joinTimer := none, presenceTimer := none, muteTimer := none } }.post
                (.station .faulted .duplicate) s.ownId 0#8 (some 0#8)
            let off := { entered with
              lc := { entered.lc with tx := .off, abandons := 0, view := none, receiving := false }
              paths := { entered.paths with toTf := [], toPm := [], toOd := [], toRing := [], notices := [] } }
            let lost := off.flush.eachEntry fun s i => s.loseEntry .fault i
            exec .duplicate s = .next { lost with
              pm := { lost.pm with rows := lost.pm.rows.map fun _ => ⟨false, none, s.sc.period.getD 0, none⟩ } })
          ∧ (s.sc.state = .loading ∨ s.sc.state = .unconfigured ∨ s.sc.state = .detached ∨ s.sc.state = .faulted →
              exec .duplicate s = .next { s with paths := { s.paths with duplicates := n } }))
    ∧ ∀ (s : State) (cause : LossCause) (i : Nat) (e : Entry), s.entry? i = some e →
        let stopped := { e with refreshTimer := none, spacingTimer := none, windowTimer := none, takeoverTimer := none }
        let givenUp := { stopped with
          ownership := .consumer .unknown, freshTimer := some (e.decl.staleFactor * e.decl.refresh), pendingTag := none }
        (e.ownership = .own → s.loseEntry cause i = (s.put i givenUp).post (.ownershipLost cause) e.decl.objectId 0#8 e.version)
          ∧ (e.ownership = .yielding → s.loseEntry cause i =
              (let lost := (s.put i givenUp).post (.ownershipLost cause) e.decl.objectId 0#8 e.version
              match e.pendingTag with
              | none => lost
              | some tag => lost.post (.releaseOutcome .unannounced) e.decl.objectId tag e.version))
          ∧ (∀ prior changed, e.ownership = .claiming prior changed →
              s.loseEntry cause i = (s.put i stopped).returnToPrior i .failed)
          ∧ ∀ v, e.ownership = .consumer v → s.loseEntry cause i = s.put i stopped

/-- RESTART of scope LINE (R158), with what it does at an entry (R24). The flush drops outcome reports (assumption 12) and LP completes in the same
step (assumption 31), by the model's reading. -/
def Obligations.ALineRestartEntersListeningWithEveryEntryUnknown : Prop :=
  (∀ (s : State) (r : Request), s.serves .restart r → r.first = 1#8 → s.sc.state ≠ .loading → s.sc.state ≠ .unconfigured →
    let entered := { s with
      sc := { s.sc with state := .listening, leaveTag := none, joinTimer := none, presenceTimer := none, muteTimer := none } }.post
        (.station .listening .restartLine) s.ownId r.tag (some 0#8)
    let flushed := (entered.eachEntry State.lineRestartEntry).flush
    let reset := { flushed with
      pm := { flushed.pm with rows := flushed.pm.rows.map fun _ => ⟨false, none, s.sc.period.getD 0, none⟩ }
      lc := { flushed.lc with tx := .idle, receiving := false, abandons := 0, recovery := false } }
    exec .restartLine s = .next (reset.beginListening.responded (bare 13#8 r.tag .ok)))
    ∧ ∀ (s : State) (i : Nat) (e : Entry), s.entry? i = some e →
        let restarted := s.put i { e with
          ownership := .consumer .unknown
          freshness := if e.freshness = .never then .never else .stale
          pendingTag := none
          slot := .none
          freshTimer := none, refreshTimer := none, spacingTimer := none, windowTimer := none, takeoverTimer := none }
        (∀ v, e.ownership = .consumer v → s.lineRestartEntry i = restarted)
          ∧ (∀ prior changed, e.ownership = .claiming prior changed → s.lineRestartEntry i =
              restarted.post (.claimOutcome .cancelled) e.decl.objectId (e.pendingTag.getD 0#8) e.version)
          ∧ (e.ownership = .own → s.lineRestartEntry i = restarted.post (.ownershipLost .restart) e.decl.objectId 0#8 e.version)
          ∧ (e.ownership = .yielding → s.lineRestartEntry i =
              (let lost := restarted.post (.ownershipLost .restart) e.decl.objectId 0#8 e.version
              match e.pendingTag with
              | none => lost
              | some tag => lost.post (.releaseOutcome .unannounced) e.decl.objectId tag e.version))

/-- The end of LISTENING (R150, R83, R53, R69) and the presence timer (R87). Which of the join actions and the first ACTIVE PRESENCE reaches
the scheduler first is left open by R150 and chosen by the command's operand (assumption 9). The sweep's notices are taken at OD in LISTENING, behind
the notices that waited already (R82, read so in assumption 28). A join-listen or presence timer that is stopped or not due does not expire (R143): the
command leaves the state as it is, by the model's choice (assumption 2). -/
def Obligations.TheEndOfListeningRunsTheJoinActions : Prop :=
  (∀ (s : State) (presenceFirst : Bool), s.rstLow = false → s.sc.state = .listening → s.sc.joinTimer = some 0 →
    let entered := { s.joinSweep with sc := { s.joinSweep.sc with state := .active, joinTimer := none } }.post
      (.station .active .listenDone) s.ownId 0#8 (some 0#8)
    let actions := fun u : State => (u.eachEntry State.joinEntry).eachEntry State.joinQuery
    let presence := fun u : State =>
      let v := u.requestPresence .active
      { v with sc := { v.sc with presenceTimer := some (v.sc.period.getD 0) } }
    exec (.joinListenExpiry presenceFirst) s = .next (if presenceFirst then actions (presence entered) else presence (actions entered)))
    ∧ (∀ (s : State) (presenceFirst : Bool), s.sc.state ≠ .listening ∨ s.sc.joinTimer ≠ some 0 →
        exec (.joinListenExpiry presenceFirst) s = .next s)
    ∧ (∀ s : State, s.sc.presenceTimer ≠ some 0 → exec .presenceTimerExpiry s = .next s)
    ∧ (∀ s : State, s.joinSweep = ((List.range' 1 31).foldl State.sweepRow s).noticesTaken)
    ∧ (∀ s : State, s.noticesTaken = s.paths.notices.foldl (fun s n => s.eachEntry fun s i => s.noticeAtEntry n.station i)
        { s with paths := { s.paths with notices := [] } })
    ∧ (∀ (s : State) (n : Nat) (row : PeerRow), s.rowIs n row →
        s.sweepRow n = if row.present = false ∧ n ≠ s.ownNumber.toNat
          then { s with paths := { s.paths with notices := s.paths.notices ++ [⟨BitVec.ofNat 8 n, .absent⟩] } } else s)
    ∧ (∀ (s : State) (i : Nat) (e : Entry), s.entry? i = some e →
        let claims := e.decl.role = .home ∧ ∃ v, e.ownership = .consumer v ∧ ∀ o any, v ≠ .foreign o 0#4 any
        let waits := e.decl.role = .spare ∧ e.decl.takeover = true ∧ ∃ v, e.ownership = .consumer v ∧ ∀ o k any, v ≠ .foreign o k any
        let asks := (∃ v, e.ownership = .consumer v) ∧ e.freshness ≠ .fresh ∧ e.slot = .none
        (claims → s.joinEntry i = s.startClaim i)
          ∧ (waits → s.joinEntry i = s.put i { e with takeoverTimer := some (e.decl.rank.toNat * s.od.claimWindow.getD 0) })
          ∧ (¬ claims → ¬ waits → s.joinEntry i = s)
          ∧ (asks → s.joinQuery i = s.append i ⟨.query, .routine, false, false, none⟩)
          ∧ (¬ asks → s.joinQuery i = s))
    ∧ ∀ s : State, s.rstLow = false → s.sc.presenceTimer = some 0 →
        let restarted := { s with sc := { s.sc with presenceTimer := some (s.sc.period.getD 0) } }
        (s.sc.presence = .none → exec .presenceTimerExpiry s = .next (restarted.requestPresence .active))
          ∧ (s.sc.presence ≠ .none → exec .presenceTimerExpiry s = .next restarted)

/-- The request of a PRESENCE (R85), and its withdrawal on the way to DETACHED from LISTENING (R89). That the withdrawal also voids an outcome report
given and not yet taken is the model's reading (assumption 12). -/
def Obligations.ARequestedPresenceMeetsThePresenceRecord : Prop :=
  ∀ (s : State) (st : PresenceStatus),
    (s.sc.presence = .none → s.ts.routine.length < 16 → s.requestPresence st =
        ({ s with
          sc := { s.sc with presence := .queued st }
          ts := { s.ts with routine := s.ts.routine ++ [Ref.presence] } }).judgeBacklog)
      ∧ (s.sc.presence = .none → 16 ≤ s.ts.routine.length →
          s.requestPresence st = { s with sc := { s.sc with presence := .owed st } })
      ∧ (∀ old, s.sc.presence = .queued old → s.requestPresence st = { s with sc := { s.sc with presence := .queued st } })
      ∧ (∀ old, s.sc.presence = .owed old → s.requestPresence st = { s with sc := { s.sc with presence := .owed st } })
      ∧ (∀ old follow, s.sc.presence = .inFlight old follow →
          s.requestPresence st = { s with sc := { s.sc with presence := .inFlight old (some st) } })
      ∧ (let dropped := { s with sc := { s.sc with presence := .none }, paths := { s.paths with presenceReport := none } }
        (∀ old, s.sc.presence = .queued old → s.dropPresence =
            { dropped with ts := { s.ts with routine := s.ts.routine.erase Ref.presence } }.judgeBacklog.offerRoutine)
          ∧ ((∀ old, s.sc.presence ≠ .queued old) → s.dropPresence = dropped))

/-! ## The configuration image -/

/-- The memory read (R164, R165): part 1 with its format and count checks, part 2 with the validation, failed attempts and their wait; and the
transaction IL runs on the link for each part, with the acknowledgements it gives. A transaction ends with one command (assumption 24). -/
def Obligations.TheMemoryReadFillsTheBufferAndGivesUpAfterThreeAttempts : Prop :=
  (∀ (s : State) (bytes : List Byte) (failed : Nat), s.rstLow = false → s.il.phase = .reading .header failed → bytes.length = 17 →
    let buffer := s.il.staging.writeAll 0 bytes
    let staged := { s with il := { s.il with staging := buffer } }
    ((buffer.read 0).toNat ≠ 1 → exec (.readHeader bytes) s = .next (staged.imageFailed .badFormat 0 0#8))
      ∧ ((buffer.read 0).toNat = 1 → ¬ (1 ≤ (buffer.read 8).toNat ∧ (buffer.read 8).toNat ≤ 64) →
          exec (.readHeader bytes) s = .next (staged.imageFailed .badCount 0 0#8))
      ∧ ((buffer.read 0).toNat = 1 → 1 ≤ (buffer.read 8).toNat → (buffer.read 8).toNat ≤ 64 →
          exec (.readHeader bytes) s = .next { s with il := { s.il with staging := buffer, phase := .reading .remainder failed } }))
    ∧ (∀ (s : State) (bytes : List Byte) (failed : Nat), s.rstLow = false → s.il.phase = .reading .remainder failed →
        bytes.length = 10 * (s.il.staging.read 8).toNat + 2 →
        exec (.readRemainder bytes) s =
          .next ({ s with il := { s.il with staging := s.il.staging.writeAll 17 bytes } }.validated 0#8))
    ∧ (∀ (s : State) (failed : Nat), s.rstLow = false →
        s.il.phase = .reading .header failed ∨ s.il.phase = .reading .remainder failed →
        (failed < 2 → exec .attemptFailed s = .next { s with il := { s.il with phase := .reading (.wait 10) (failed + 1) } })
          ∧ (2 ≤ failed → exec .attemptFailed s = .next (s.imageFailed .noMemory 0 0#8)))
    ∧ (∀ (s : State) (failed : Nat), s.rstLow = false → s.il.phase = .reading (.wait 0) failed →
        exec .attemptWaitExpiry s = .next { s with il := { s.il with phase := .reading .header failed } })
    ∧ (∀ s : State,
        let addressed := fun high low : Byte => [LinkSignal.start, .device 0x56#7 false, .address high, .address low, .start, .device 0x56#7 true]
        (s.rstLow = true → s.link = [])
          ∧ (s.rstLow = false →
              (∀ failed, s.il.phase = .reading .header failed →
                  s.link = addressed 0#8 0#8 ++ List.replicate 16 (.data true) ++ [.data false, .stop])
                ∧ (∀ failed, s.il.phase = .reading .remainder failed →
                    s.link = addressed 0#8 17#8 ++ List.replicate (10 * (s.il.staging.read 8).toNat + 1) (.data true) ++ [.data false, .stop])
                ∧ ((∀ failed, s.il.phase ≠ .reading .header failed) → (∀ failed, s.il.phase ≠ .reading .remainder failed) → s.link = [])))
    ∧ ∀ (m : Memory) (at' : Nat) (bytes : List Byte), m.wf = true →
        (m.writeAll at' bytes).wf = true
          ∧ (∀ k, k < bytes.length → (m.writeAll at' bytes).read (at' + k) = bytes.getD k 0#8)
          ∧ ∀ k, k < at' ∨ at' + bytes.length ≤ k → (m.writeAll at' bytes).read k = m.read k

/-- LOAD (R168, R192), without and with FINISH: its checks in their order, the bytes written, the FINISH result (R169, R170).
That LP completes in the same step is the model's reading (assumption 31). -/
def Obligations.LoadWritesTheBufferAndFinishJudgesIt : Prop :=
  ∀ (s : State) (r : Request), s.serves .load r →
    let command : Instr := if r.first.getLsbD 0 then .loadFinish else .load
    let loaded := if r.length = 0#8 then s
      else { s with il := { s.il with staging := s.il.staging.writeAll r.objectId.toNat (r.value.take r.length.toNat) } }
    (s.sc.state ≠ .unconfigured → exec command s = .next (s.responded (bare 14#8 r.tag .wrongState)))
      ∧ (s.sc.state = .unconfigured →
          (32 < r.length.toNat → exec command s = .next (s.responded (bare 14#8 r.tag .length)))
            ∧ (r.length.toNat = 0 → r.first.getLsbD 0 = false → exec command s = .next (s.responded (bare 14#8 r.tag .badRequest)))
            ∧ (1 ≤ r.length.toNat → r.length.toNat ≤ 32 → 659 < r.objectId.toNat + r.length.toNat →
                exec command s = .next (s.responded (bare 14#8 r.tag .length)))
            ∧ (1 ≤ r.length.toNat → r.length.toNat ≤ 32 → r.objectId.toNat + r.length.toNat ≤ 659 → r.first.getLsbD 0 = false →
                exec command s = .next (loaded.responded (bare 14#8 r.tag .ok)))
            ∧ (r.length.toNat ≤ 32 → r.length.toNat = 0 ∨ r.objectId.toNat + r.length.toNat ≤ 659 → r.first.getLsbD 0 = true →
                (∀ im, loaded.il.staging.validate = .ok im →
                    exec command s = .next ((loaded.imageLoaded im r.tag).responded (bare 14#8 r.tag .ok)))
                  ∧ ∀ f index, loaded.il.staging.validate = .error (f, index) →
                      exec command s = .next ((loaded.imageFailed f index r.tag).responded
                        { bare 14#8 r.tag .imageFault with version := f.code, station := BitVec.ofNat 8 index })))

/-- The validation (R166, R167): the eight checks in their order, the first that fails with its index; and the ranges and codes of an entry
declaration, ten bytes from an offset on (R163, R203, R2, R3). -/
def Obligations.ValidationReportsTheFirstFailingCheck : Prop :=
  (∀ m : Memory,
    let n := (m.read 8).toNat
    let format := (m.read 0).toNat = 1
    let count := 1 ≤ n ∧ n ≤ 64
    let check := crc16 (m.readAll 0 (17 + 10 * n)) = m.read (17 + 10 * n) ++ m.read (18 + 10 * n)
    let station := 1 ≤ (m.read 1).toNat ∧ (m.read 1).toNat ≤ 31
    let rate := (m.read 2).toNat % 16 ≤ 3
    let joinListen := 256 * (m.read 5).toNat + (m.read 6).toNat
    let timing := (2 ≤ (m.read 3).toNat ∧ (m.read 3).toNat ≤ 200) ∧ (5 ≤ (m.read 4).toNat ∧ (m.read 4).toNat ≤ 250)
      ∧ (5 ≤ joinListen ∧ joinListen ≤ 500) ∧ (1 ≤ (m.read 7).toNat ∧ (m.read 7).toNat ≤ 100)
    let decl := fun k : Nat => m.declAt (17 + 10 * (k - 1))
    (¬ format → m.validate = .error (.badFormat, 0))
      ∧ (format → ¬ count → m.validate = .error (.badCount, 0))
      ∧ (format → count → ¬ check → m.validate = .error (.badCheck, 0))
      ∧ (format → count → check → ¬ station → m.validate = .error (.badStation, 0))
      ∧ (format → count → check → station → ¬ rate → m.validate = .error (.badRate, 0))
      ∧ (format → count → check → station → rate → ¬ timing → m.validate = .error (.badTiming, 0))
      ∧ (format → count → check → station → rate → timing →
          (∀ k, 1 ≤ k → k ≤ n → decl k = none → (∀ j, 1 ≤ j → j < k → decl j ≠ none) → m.validate = .error (.badEntry, k))
            ∧ ∀ decls : List Decl, decls.length = n → (∀ k, 1 ≤ k → k ≤ n → decl k = decls[k - 1]?) →
                ((decls.map fun d => d.objectId).Nodup → m.validate = .ok (m.image decls))
                  ∧ ∀ k d, 1 ≤ k → decls[k - 1]? = some d → (∃ d' ∈ decls.take (k - 1), d'.objectId = d.objectId) →
                      ((decls.take (k - 1)).map fun d => d.objectId).Nodup → m.validate = .error (.duplicateObject, k)))
    ∧ ∀ (m : Memory) (o : Nat),
        let id := 256 * (m.read o).toNat + (m.read (o + 1)).toNat
        let role := (m.read (o + 2)).toNat
        let rank := (m.read (o + 3)).toNat
        let flags := m.read (o + 4)
        let refresh := 256 * (m.read (o + 6)).toNat + (m.read (o + 7)).toNat
        let inRange := (1 ≤ id ∧ id ≤ 4094) ∧ (1 ≤ role ∧ role ≤ 3) ∧ (role = 2 → 1 ≤ rank ∧ rank ≤ 14)
          ∧ ¬ (flags.getLsbD 2 = true ∧ flags.getLsbD 3 = true) ∧ (1 ≤ (m.read (o + 5)).toNat ∧ (m.read (o + 5)).toNat ≤ 32)
          ∧ (10 ≤ refresh ∧ refresh ≤ 10000) ∧ (2 ≤ (m.read (o + 8)).toNat ∧ (m.read (o + 8)).toNat ≤ 8) ∧ (m.read (o + 9)).toNat ≤ 100
        (¬ inRange → m.declAt o = none)
          ∧ (inRange → m.declAt o = some
              { objectId := BitVec.ofNat 12 id
                role := if role = 1 then .home else if role = 2 then .spare else .listen
                rank := if role = 1 then 0#4 else if role = 2 then BitVec.ofNat 4 rank else 15#4
                takeover := decide (role = 2) && flags.getLsbD 1
                cls := if flags.getLsbD 0 then .urgent else .routine
                notify := if flags.getLsbD 2 then .change else if flags.getLsbD 3 then .every else .none
                maxLength := (m.read (o + 5)).toNat
                refresh := refresh
                staleFactor := (m.read (o + 8)).toNat
                spacing := 10 * (m.read (o + 9)).toNat })

/-- The outcome of a validation (R169, R170, R23, R144 to R146, R162): the installation into every block, or the fault. -/
def Obligations.AValidatedImageIsInstalledAndAFaultLeavesTheStationUnconfigured : Prop :=
  (∀ (s : State) (decls : List Decl) (tag : Byte),
    let m := s.il.staging
    let im := m.image decls
    let period := 10 * (m.read 3).toNat
    let installed : State := { s with
      od := ⟨decls.map fun d => ⟨d, .consumer .unknown, none, [], .never, .none, none, none, none, none, none, none⟩, [], [],
        some (m.read 4).toNat⟩
      tf := { s.tf with interest := m.read 16 ++ m.read 15 ++ m.read 14 ++ m.read 13 ++ m.read 12 ++ m.read 11 ++ m.read 10 ++ m.read 9 }
      pm := { s.pm with rows := s.pm.rows.map fun _ => ⟨false, none, period, none⟩ }
      lc := { s.lc with rate := some ((m.read 2).extractLsb' 0 2) }
      sc := { s.sc with number := some (m.read 1), period := some period,
                        joinListen := some (10 * (256 * (m.read 5).toNat + (m.read 6).toNat)),
                        muteInterval := some (100 * (m.read 7).toNat), autoJoin := some ((m.read 2).getLsbD 7),
                        state := if (m.read 2).getLsbD 7 then .listening else .detached }
      il := { s.il with phase := .installed, fault := .none, faultIndex := 0 } }
    let state : StationState := if (m.read 2).getLsbD 7 then .listening else .detached
    let loaded := installed.post (.station state .imageLoaded) ((m.read 1).setWidth 12) tag (some 0#8)
    (m.validate = .ok im → s.validated tag = s.imageLoaded im tag)
      ∧ s.imageLoaded im tag = if (m.read 2).getLsbD 7 then loaded.beginListening else loaded)
    ∧ ∀ (s : State) (f : FaultCode) (index : Nat) (tag : Byte),
        (s.il.staging.validate = .error (f, index) → s.validated tag = s.imageFailed f index tag)
          ∧ s.imageFailed f index tag =
            { s with
              il := { s.il with phase := .awaitingLoad, fault := f, faultIndex := index }
              sc := { s.sc with state := .unconfigured } }.post
                (.station .unconfigured .imageFault) (BitVec.ofNat 12 index) tag (some f.code)

/-! ## The line -/

/-- The line view (R112), and the take (R114, R115, R137) `age` bit times after the start of quiet: the URGENT head at once, the ROUTINE head
after 60 bit times with the URGENT queue empty; the telegram is frozen with the fields of R64, R68 and R95 to R99. The operand is the
model's way to count bit times (assumption 6), and that LINE_BUSY makes a reception possible (`receiving`) is its reading of R120 (assumption 19).
With a view other than QUIET, outside IDLE and from empty queues nothing is started, and a view that the line does not change stays: these commands
then leave the state as it is, by the model's choice (assumption 2). -/
def Obligations.TheTakeFreezesTheHeadOfAQueueOnAQuietLine : Prop :=
  (∀ s : State, s.rstLow = false →
    (s.lc.view = some .busy → (∀ h, s.lc.tx ≠ .transmitting h) → (∀ h, s.lc.tx ≠ .jamming h) →
        exec .lineQuiet s = .next { s with lc := { s.lc with view := some .quiet } })
      ∧ (s.lc.view = some .quiet → (∀ h, s.lc.tx ≠ .transmitting h) → (∀ h, s.lc.tx ≠ .jamming h) →
          exec .lineBusy s = .next { s with lc := { s.lc with view := some .busy, receiving := true } })
      ∧ (s.lc.view ≠ some .busy ∨ (∃ h, s.lc.tx = .transmitting h) ∨ (∃ h, s.lc.tx = .jamming h) → exec .lineQuiet s = .next s)
      ∧ (s.lc.view ≠ some .quiet → exec .lineBusy s = .next s))
    ∧ (∀ (s : State) (age : Nat), s.lc.view ≠ some .quiet ∨ s.lc.tx ≠ .idle ∨ (s.ts.urgent = [] ∧ s.ts.routine = []) →
        exec (.take age) s = .next s)
    ∧ (∀ (s : State) (age i : Nat) (rest : List Nat) (e : Entry) (o : Outbound), s.rstLow = false → s.lc.tx = .idle →
        s.lc.view = some .quiet → s.ts.urgent = i :: rest → s.entry? i = some e → e.slot = .queued o →
        exec (.take age) s = .next (({ s with ts := { s.ts with urgent := rest } }.put i { e with slot := .inFlight o .none }).startAttempt
          ⟨e.telegram s.ownNumber o, .urgent, .entry i, 1⟩).offerUrgent)
    ∧ (∀ (s : State) (age i : Nat) (rest : List Ref) (e : Entry) (o : Outbound), s.rstLow = false → s.lc.tx = .idle →
        s.lc.view = some .quiet → s.ts.urgent = [] → s.ts.routine = .entry i :: rest → s.entry? i = some e → e.slot = .queued o →
        (60 ≤ age → exec (.take age) s = .next
            ((({ s with ts := { s.ts with routine := rest } }.put i { e with slot := .inFlight o .none }).startAttempt
              ⟨e.telegram s.ownNumber o, .routine, .entry i, 1⟩).judgeBacklog).offerRoutine)
          ∧ (age < 60 → exec (.take age) s = .next s))
    ∧ (∀ (s : State) (age : Nat) (rest : List Ref) (st : PresenceStatus), s.rstLow = false → s.lc.tx = .idle →
        s.lc.view = some .quiet → s.ts.urgent = [] → s.ts.routine = .presence :: rest → s.sc.presence = .queued st →
        (60 ≤ age → exec (.take age) s = .next
            ((({ s with ts := { s.ts with routine := rest }, sc := { s.sc with presence := .inFlight st none } }).startAttempt
              ⟨⟨5#4, 0#4, s.ownNumber, s.sc.epoch.getD 0#12, st.code, BitVec.ofNat 8 (s.ownPeriod / 10), 0#8, []⟩,
                .routine, .presence, 1⟩).judgeBacklog).offerRoutine)
          ∧ (age < 60 → exec (.take age) s = .next s))
    ∧ (∀ (s : State) (h : Held),
        s.startAttempt h = { s with lc := { s.lc with tx := .transmitting h, view := some .busy, receiving := false } })
    ∧ ∀ (e : Entry) (own : Byte) (o : Outbound), e.telegram own o = match o.kind with
        | .publish => ⟨1#4, (if o.refresh then 1#4 else 0#4) + (if o.answer then 2#4 else 0#4), own, e.decl.objectId, e.decl.rank,
            e.version.getD 0#8, BitVec.ofNat 8 e.value.length, e.value⟩
        | .query => ⟨2#4, if e.version = none then 4#4 else 0#4, own, e.decl.objectId, e.decl.rank, e.version.getD 0#8, 0#8, []⟩
        | .claim => ⟨3#4, 0#4, own, e.decl.objectId, e.decl.rank, 0#8, 0#8, []⟩
        | .yield => match o.successor with
          | none => ⟨4#4, 0#4, own, e.decl.objectId, e.decl.rank, e.version.getD 0#8, 0#8, []⟩
          | some n => ⟨4#4, 0#4, own, e.decl.objectId, e.decl.rank, e.version.getD 0#8, 1#8, [n]⟩

/-- A retry (R118), a sent outcome (R116, R122), a collision (R117) and the end of a jam (R117 to R119, R122). A backoff lies in its range,
whatever the free-running sequence gives (assumption 8). By the model's choice the operand counts the bit times since the start of quiet, and the retry
may come at any bit time from its first on (assumption 6), and a HARVEST record stands ahead of LINE (RECOVERED) and LINE (MUTED) (assumption 10).
A retry with a view other than QUIET, and each command outside the transmitter state it belongs to, leaves the state as it is (assumption 2).
The last clause is the line pins with RST_N high (R110, R111, R117): TXEN is active in TRANSMITTING and JAMMING alone, and TXD is the telegram's level of
that bit time, 0 in the jam and 1 otherwise. -/
def Obligations.AnAttemptIsSentOrCollidesAndIsRetriedOrAbandoned : Prop :=
  (∀ (s : State) (age draw : Nat) (h : Held), s.rstLow = false → s.lc.tx = .retryWait h draw → s.lc.view = some .quiet →
    let slots := (match h.cls with
      | .urgent => 0
      | .routine => 3) + draw
    (20 * slots ≤ age → exec (.retryAttempt age) s = .next (s.startAttempt h))
      ∧ (age < 20 * slots → exec (.retryAttempt age) s = .next s))
    ∧ (∀ (s : State) (age : Nat), s.lc.view ≠ some .quiet ∨ (∀ h draw, s.lc.tx ≠ .retryWait h draw) → exec (.retryAttempt age) s = .next s)
    ∧ (∀ s : State, ((∀ h, s.lc.tx ≠ .transmitting h) → exec .sent s = .next s ∧ ∀ bit level, exec (.collision bit level) s = .next s)
        ∧ ((∀ h, s.lc.tx ≠ .jamming h) → exec .jamEnd s = .next s))
    ∧ (∀ (s : State) (h : Held), s.rstLow = false → s.lc.tx = .transmitting h →
        let counted := ({ s with lc := { s.lc with tx := .idle, abandons := 0 } }.report h.ref .sent).bump .txSent
        exec .sent s = .next (if s.lc.recovery
          then { counted with lc := { counted.lc with recovery := false } }.post (.line .recovered) s.ownId 0#8 (some 0#8)
          else counted))
    ∧ (∀ (s : State) (h : Held) (bit : Nat) (driven level : Bool), s.rstLow = false → s.lc.tx = .transmitting h →
        h.telegram.levels[bit]? = some driven →
        exec (.collision bit level) s =
          .next (if driven = level then s else { s with lc := { s.lc with tx := .jamming h } }.bump .collisions))
    ∧ (∀ (s : State) (h : Held), s.rstLow = false → s.lc.tx = .jamming h → h.attempt < 8 →
        ∃ draw, draw < 2 ^ min h.attempt 4 ∧ exec .jamEnd s = .next { s with
          draws := s.draws + 1
          lc := { s.lc with tx := .retryWait { h with attempt := h.attempt + 1 } draw } })
    ∧ (∀ (s : State) (h : Held), s.rstLow = false → s.lc.tx = .jamming h → 8 ≤ h.attempt →
        let counted := ({ s with lc := { s.lc with tx := .idle, abandons := s.lc.abandons + 1 } }.report h.ref .abandoned).bump .abandoned
        (s.lc.abandons < 2 → exec .jamEnd s = .next counted)
          ∧ (2 ≤ s.lc.abandons →
              let muted := { counted with lc := { counted.lc with tx := .halted, recovery := true } }.post
                (.line .muted) s.ownId 0#8 (some 0#8)
              exec .jamEnd s = .next { muted with paths := { muted.paths with mutedReport := true } }))
    ∧ (∀ (s : State) (outcome : TxOutcome),
        (∀ i, s.report (.entry i) outcome = { s with paths := { s.paths with reports := s.paths.reports ++ [(i, outcome)] } })
          ∧ s.report .presence outcome = { s with paths := { s.paths with presenceReport := some outcome } })
    ∧ ∀ s : State, s.rstLow = false →
        (s.txen = true ↔ (∃ h, s.lc.tx = .transmitting h) ∨ ∃ h, s.lc.tx = .jamming h)
          ∧ (∀ h bit level, s.lc.tx = .transmitting h → h.telegram.levels[bit]? = some level → s.txd bit = level)
          ∧ (∀ h bit, s.lc.tx = .jamming h → s.txd bit = false)
          ∧ ((∀ h, s.lc.tx ≠ .transmitting h) → (∀ h, s.lc.tx ≠ .jamming h) → ∀ bit, s.txd bit = true)

/-- What one station sends another receives (R110, R120, R121, R202): the levels of any telegram, followed by twelve bit times at 1, deliver
exactly that telegram, its payload kept up to 32 bytes. The levels are spelled: the start sequence, then each byte with its start bit, its data bits least
significant first and its stop bit, the check bytes by the CRC's register bit by bit. That the reception's levels are the operand and that its end makes
the view QUIET in the same event is the model's reading (assumption 19). -/
def Obligations.ATelegramOnTheLineIsDeliveredAsItWasSent : Prop :=
  let crc : List Byte → BitVec 16 := fun bytes => bytes.foldl (fun (r : BitVec 16) (b : Byte) => [7, 6, 5, 4, 3, 2, 1, 0].foldl (fun (r : BitVec 16) (k : Nat) =>
    if r.getLsbD 15 = b.getLsbD k then r <<< 1 else (r <<< 1) ^^^ 0x1021#16) r) 0xFFFF#16
  let levelsOf := fun bytes : List Byte => bytes.flatMap fun b => [false, b.getLsbD 0, b.getLsbD 1, b.getLsbD 2, b.getLsbD 3,
    b.getLsbD 4, b.getLsbD 5, b.getLsbD 6, b.getLsbD 7, true]
  (∀ (s : State) (t : Telegram), s.rstLow = false → s.lc.view.isSome = true → s.lc.receiving = true →
    t.payload.length = t.length.toNat →
      exec (.reception (t.levels ++ List.replicate 12 true)) s = .next { s with
        lc := { s.lc with receiving := false, view := some .quiet }
        paths := { s.paths with toTf := s.paths.toTf ++ [{ t with payload := t.payload.take 32 }] } })
    ∧ ∀ t : Telegram,
        let body := [t.kind ++ t.flags, t.source, t.objectId.extractLsb' 4 8, t.objectId.extractLsb' 0 4 ++ t.rank, t.version, t.length] ++ t.payload
        t.levels = [false, false, false, false, false, false, true, true] ++ levelsOf (body ++ [highByte (crc body), lowByte (crc body)])

/-- How a reception ends (R120, R121): a bad stop bit, a gap of 1 to 11 bit times or a 264th byte fails it; twelve bit times at 1 end it,
and it is delivered if its length and check are right. The levels are the model's operand (assumption 19). -/
def Obligations.AReceptionIsDeliveredOrCountedBad : Prop :=
  ∀ (s : State) (bytes : List Byte), s.rstLow = false → s.lc.view.isSome = true → s.lc.receiving = true → bytes.length ≤ 263 →
    let crc : List Byte → BitVec 16 := fun l => l.foldl (fun (r : BitVec 16) (b : Byte) => [7, 6, 5, 4, 3, 2, 1, 0].foldl (fun (r : BitVec 16) (k : Nat) =>
      if r.getLsbD 15 = b.getLsbD k then r <<< 1 else (r <<< 1) ^^^ 0x1021#16) r) 0xFFFF#16
    let sent := [false, false, false, false, false, false, true, true] ++ bytes.flatMap fun b => [false, b.getLsbD 0, b.getLsbD 1,
      b.getLsbD 2, b.getLsbD 3, b.getLsbD 4, b.getLsbD 5, b.getLsbD 6, b.getLsbD 7, true]
    let failed := { s with lc := { s.lc with receiving := false } }.bump .rxBad
    let ended := { s with lc := { s.lc with receiving := false, view := some .quiet } }
    let size := bytes.length
    let good := 8 ≤ size ∧ size = 8 + (bytes.getD 5 0#8).toNat
      ∧ crc (bytes.take (size - 2)) = bytes.getD (size - 2) 0#8 ++ bytes.getD (size - 1) 0#8
    (good → exec (.reception (sent ++ List.replicate 12 true)) s =
        .next { ended with paths := { s.paths with toTf := s.paths.toTf ++ [Telegram.ofBytes bytes] } })
      ∧ (¬ good → exec (.reception (sent ++ List.replicate 12 true)) s = .next (ended.bump .rxBad))
      ∧ (∀ k, 1 ≤ k → k ≤ 11 →
          exec (.reception (sent ++ List.replicate k true ++ [false])) s = .next failed)
      ∧ (∀ data : List Bool, data.length = 8 → size < 263 →
          exec (.reception (sent ++ [false] ++ data ++ [false])) s = .next failed)
      ∧ (size = 263 → exec (.reception (sent ++ [false])) s = .next failed)

/-! ## The Telegram Filter and the Peer Monitor -/

/-- TF takes a delivered telegram: the six checks (R100), the duplicate check (R101), PM hears it (R102), and it goes to OD, to the ring or
to no one (R103 to R105). -/
def Obligations.ADeliveredTelegramIsCheckedAndRouted : Prop :=
  ∀ (s : State) (t : Telegram) (rest : List Telegram), s.rstLow = false → s.paths.toTf = t :: rest →
    let taken := { s with paths := { s.paths with toTf := rest } }
    (¬ t.PassesChecks → exec .deliveredTelegram s = .next (taken.bump .rxBad))
      ∧ (t.PassesChecks → t.source = s.ownNumber →
          exec .deliveredTelegram s = .next { taken with paths := { taken.paths with duplicates := s.paths.duplicates + 1 } })
      ∧ (t.PassesChecks → t.source ≠ s.ownNumber →
          let counted := taken.bump .rxGood
          let heard := { counted with paths := { counted.paths with toPm := s.paths.toPm ++ [t] } }
          let id := t.objectId.toNat
          let toOd := t.kind ≠ 5#4 ∧ ¬ s.lacks id
          let toRing := t.kind = 1#4 ∧ s.lacks id ∧ s.tf.interest.getLsbD ((id / 64 ^^^ id) % 64) = true
          (toOd → exec .deliveredTelegram s = .next { heard with paths := { heard.paths with toOd := s.paths.toOd ++ [t] } })
            ∧ (toRing → exec .deliveredTelegram s = .next { heard with paths := { heard.paths with toRing := s.paths.toRing ++ [t] } })
            ∧ (¬ toOd → ¬ toRing → exec .deliveredTelegram s = .next heard))

/-- A heard telegram at the row of its source (R78, R80, R81), and the silence deadline of a PRESENT row (R79).
A deadline that is stopped or not due does not expire (R77): the command leaves the state as it is, by the model's choice (assumption 2). -/
def Obligations.APeerRowFollowsWhatIsHeardAndItsSilence : Prop :=
  (∀ (s : State) (t : Telegram) (rest : List Telegram) (row : PeerRow), s.rstLow = false → s.paths.toPm = t :: rest →
    s.rowIs t.source.toNat row →
    let taken := { s with paths := { s.paths with toPm := rest } }
    let n := t.source.toNat
    let id : BitVec 12 := t.source.setWidth 12
    let period := 10 * t.version.toNat
    (1 ≤ t.kind.toNat → t.kind.toNat ≤ 4 →
      let marked := taken.putRow n { row with present := true, deadline := some (3 * row.period) }
      exec .heard s = .next (if row.present then marked else marked.post (.peer .joined) id 0#8 (some 0#8)))
      ∧ (t.kind.toNat = 5 → t.rank.toNat ≠ 3 →
          let marked := taken.putRow n ⟨true, some t.objectId, period, some (3 * period)⟩
          let joined := if row.present then marked else marked.post (.peer .joined) id 0#8 (some 0#8)
          (row.epoch = none ∨ row.epoch = some t.objectId → exec .presenceHeard s = .next joined)
            ∧ ∀ old, row.epoch = some old → old ≠ t.objectId →
                let restarted := joined.post (.peer .restarted) id 0#8 (some 0#8)
                exec .presenceHeard s = .next { restarted with
                  paths := { restarted.paths with notices := s.paths.notices ++ [⟨t.source, .restarted⟩] } })
      ∧ (t.kind.toNat = 5 → t.rank.toNat = 3 →
          let left := (taken.putRow n ⟨false, some t.objectId, period, none⟩).post (.peer .leaving) id 0#8 (some 0#8)
          exec .leavingPresenceHeard s = .next { left with
            paths := { left.paths with notices := s.paths.notices ++ [⟨t.source, .leaving⟩] } }))
    ∧ (∀ (s : State) (n : Nat) (row : PeerRow), s.rstLow = false → n ≤ 31 → s.rowIs n row → row.present = true → row.deadline = some 0 →
        let absent := (s.putRow n { row with present := false, deadline := none }).post (.peer .absent) (BitVec.ofNat 12 n) 0#8 (some 0#8)
        exec (.silenceDeadlineExpiry n) s = .next { absent with
          paths := { absent.paths with notices := s.paths.notices ++ [⟨BitVec.ofNat 8 n, .absent⟩] } })
    ∧ ∀ (s : State) (n : Nat), (∀ row, s.rowIs n row → row.present = false ∨ row.deadline ≠ some 0) →
        exec (.silenceDeadlineExpiry n) s = .next s

/-! ## The Object Directory: what it takes from the other blocks -/

/-- A peer notice (R50, R37, R82): every FOREIGN entry of the station is orphaned, in index order, and a claim's prior state is. The entries are
taken by index from 1 on, in ascending order, whatever is done at each (R1). -/
def Obligations.APeerNoticeOrphansTheEntriesOfThatStation : Prop :=
  (∀ (s : State) (n : Notice) (rest : List Notice), s.rstLow = false → s.paths.notices = n :: rest →
    exec .peerNotice s =
      .next ({ s with paths := { s.paths with notices := rest } }.eachEntry fun s i => s.noticeAtEntry n.station i))
    ∧ (∀ (s : State) (f : State → Nat → State), s.eachEntry f = ((List.range s.od.entries.length).map (· + 1)).foldl f s)
    ∧ ∀ (s : State) (station : Byte) (i : Nat) (e : Entry), s.entry? i = some e →
        (∀ rank any, e.ownership = .consumer (.foreign station rank any) → s.noticeAtEntry station i =
            ((s.put i { e with ownership := .consumer (.orphaned station rank) }).post
              (.ownerChanged .orphaned) e.decl.objectId 0#8 e.version).takeoverLogic i)
          ∧ (∀ rank any changed, e.ownership = .claiming (.foreign station rank any) changed →
              s.noticeAtEntry station i = s.put i { e with ownership := .claiming (.orphaned station rank) true })
          ∧ ((∀ rank any, e.ownership ≠ .consumer (.foreign station rank any)) →
              (∀ rank any changed, e.ownership ≠ .claiming (.foreign station rank any) changed) → s.noticeAtEntry station i = s)

/-- A PUBLISH at a consumer entry (R47, R15, R9, R20): who becomes the recorded owner, and whether the value is taken, refused for its length or
discarded as older by the version order. That a first owner leaves the deadline of a refusing entry as it stands is read from R20 (assumption 17). -/
def Obligations.APublishAtAConsumerEntryIsTakenByOwnerKeyAndVersion : Prop :=
  ∀ (s : State) (t : Telegram) (rest : List Telegram) (i : Nat) (e : Entry) (view : View), s.routed .publish t rest i e →
    e.ownership = .consumer view →
    let s1 := s.afterRouted rest
    let fits := t.length.toNat ≤ e.decl.maxLength
    let restarted := if e.freshness = .fresh then some (e.decl.staleFactor * e.decl.refresh) else e.freshTimer
    let newOwner : List (EventKind × Byte) := [(.ownerChanged .newOwner, 0#8)]
    (view = .unknown ∨ (∃ o k, view = .orphaned o k) →
      let stopped := { e with takeoverTimer := none }
      (fits → exec .publishReceived s = .next ((s1.put i stopped).acceptValue i t false newOwner).judgeSlots)
        ∧ (¬ fits → exec .publishReceived s = .next
            ((s1.put i { stopped with ownership := .consumer (.foreign t.source t.rank true) }).refuseValue i t newOwner).judgeSlots))
      ∧ (∀ rank any, view = .foreign t.source rank any →
          (¬ fits → exec .publishReceived s = .next
              ((s1.put i { e with ownership := .consumer (.foreign t.source t.rank any) }).refuseValue i t []).judgeSlots)
            ∧ (fits → any = true ∨ e.version = none → exec .publishReceived s = .next (s1.acceptValue i t false []).judgeSlots)
            ∧ ∀ held, fits → any = false → e.version = some held →
                let d := (t.version.toNat + 256 - held.toNat) % 256
                (1 ≤ d ∧ d ≤ 127 → exec .publishReceived s = .next (s1.acceptValue i t false []).judgeSlots)
                  ∧ (d = 0 → exec .publishReceived s = .next (s1.acceptValue i t true []).judgeSlots)
                  ∧ (128 ≤ d → exec .publishReceived s = .next
                      ((s1.put i { e with ownership := .consumer (.foreign t.source t.rank false) }).bump .oldVersion).judgeSlots))
      ∧ ∀ owner rank any, view = .foreign owner rank any → owner ≠ t.source →
          let better := 32 * t.rank.toNat + t.source.toNat < 32 * rank.toNat + owner.toNat
          (better → fits → exec .publishReceived s = .next (s1.acceptValue i t false newOwner).judgeSlots)
            ∧ (better → ¬ fits → exec .publishReceived s = .next
                ((s1.put i { e with ownership := .consumer (.foreign t.source t.rank true), freshTimer := restarted }).refuseValue
                  i t newOwner).judgeSlots)
            ∧ (¬ better → exec .publishReceived s = .next s1.judgeSlots)

/-- The acceptance of a value (R16, R19, R74) and its refusal for its length (R20), with their records in order. A BACKLOG record of the
withdrawn QUERY and a HARVEST record stand where assumption 10 puts them. -/
def Obligations.AnAcceptanceAndARefusalPostTheirRecordsInOrder : Prop :=
  ∀ (s : State) (i : Nat) (e : Entry) (t : Telegram) (sameRefresh : Bool) (before : List (EventKind × Byte)), s.entry? i = some e →
    let accepted := s.put i { e with
      ownership := .consumer (.foreign t.source t.rank false)
      version := some t.version
      value := t.payload
      freshness := .fresh
      freshTimer := some (e.decl.staleFactor * e.decl.refresh) }
    let asked := ∃ o, o.kind = .query ∧ (e.slot = .queued o ∨ e.slot = .owed o)
    let fresh : List (EventKind × Byte) := if e.freshness = .stale ∧ e.decl.notify ≠ .none then [(.fresh, 0#8)] else []
    let arrives := e.decl.notify = .every ∨ (e.decl.notify = .change ∧ sameRefresh = false)
    let postTo := fun (u : State) (version : Option Byte) (records : List (EventKind × Byte)) =>
      records.foldl (fun v r => v.post r.1 e.decl.objectId r.2 version) u
    (asked → arrives → s.acceptValue i t sameRefresh before =
        postTo (accepted.withdraw i) (some t.version) (before ++ fresh ++ [(.arrival, 0#8)]))
      ∧ (¬ asked → arrives → s.acceptValue i t sameRefresh before = postTo accepted (some t.version) (before ++ fresh ++ [(.arrival, 0#8)]))
      ∧ (asked → ¬ arrives → s.acceptValue i t sameRefresh before = postTo (accepted.withdraw i) (some t.version) (before ++ fresh))
      ∧ (¬ asked → ¬ arrives → s.acceptValue i t sameRefresh before = postTo accepted (some t.version) (before ++ fresh))
      ∧ s.refuseValue i t before =
          ((postTo s e.version before).bump .refused).post .valueRefused e.decl.objectId 0#8 (some t.version)

/-- A PUBLISH at a claimant (R33), an owner (R40) and a YIELDING entry (R41). At an owner that drops, the withdrawal of a ROUTINE PUBLISH posts its
BACKLOG record ahead of OWNERSHIP_LOST, an order that is the model's choice (assumption 10). -/
def Obligations.APublishDefeatsAClaimantAndAWorseOwner : Prop :=
  ∀ (s : State) (t : Telegram) (rest : List Telegram) (i : Nat) (e : Entry), s.routed .publish t rest i e →
    let s1 := s.afterRouted rest
    let fits := t.length.toNat ≤ e.decl.maxLength
    let limit := e.decl.staleFactor * e.decl.refresh
    (∀ prior changed, e.ownership = .claiming prior changed →
      let lost := { e with slot := e.slot.voided .cancel, windowTimer := none, pendingTag := none }
      let s2 := (s1.withdrawWaiting i e.slot).put i lost
      let records : List (EventKind × Byte) := [(.claimOutcome .lost, e.pendingTag.getD 0#8), (.ownerChanged .newOwner, 0#8)]
      let restarted := if e.freshness = .fresh then some limit else e.freshTimer
      (e.decl.rank = 0#4 → t.rank ≠ 0#4 → exec .publishReceived s = .next s1.judgeSlots)
        ∧ (¬ (e.decl.rank = 0#4 ∧ t.rank ≠ 0#4) → fits → exec .publishReceived s = .next (s2.acceptValue i t false records).judgeSlots)
        ∧ (¬ (e.decl.rank = 0#4 ∧ t.rank ≠ 0#4) → ¬ fits → exec .publishReceived s = .next
            ((s2.put i { lost with ownership := .consumer (.foreign t.source t.rank true), freshTimer := restarted }).refuseValue
              i t records).judgeSlots))
      ∧ (e.ownership = .own →
          let dropped := { e with slot := e.slot.voided .none, refreshTimer := none, spacingTimer := none, windowTimer := none, takeoverTimer := none }
          let s2 := (s1.withdrawWaiting i e.slot).put i dropped
          let records : List (EventKind × Byte) := [(.ownershipLost .conflict, 0#8), (.ownerChanged .newOwner, 0#8)]
          let better := 32 * t.rank.toNat + t.source.toNat < 32 * e.decl.rank.toNat + s.ownNumber.toNat
          (better → fits → exec .publishReceived s = .next (s2.acceptValue i t false records).judgeSlots)
            ∧ (better → ¬ fits → exec .publishReceived s = .next
                ((s2.put i { dropped with ownership := .consumer (.foreign t.source t.rank true), freshTimer := some limit }).refuseValue
                  i t records).judgeSlots)
            ∧ (¬ better → exec .publishReceived s = .next (s1.defend i).judgeSlots))
      ∧ (e.ownership = .yielding → exec .publishReceived s = .next s1.judgeSlots)

/-- A CLAIM at an entry (R34, R38, R39, R41, R49, R54): the takeover timer of a SPARE, the loss of a claimant, the handback or the defence
of an owner. -/
def Obligations.AClaimMeetsAHandbackADefenceOrABetterKey : Prop :=
  ∀ (s : State) (t : Telegram) (rest : List Telegram) (i : Nat) (e : Entry), s.routed .claim t rest i e →
    let s1 := s.afterRouted rest
    let better := 32 * t.rank.toNat + t.source.toNat < 32 * e.decl.rank.toNat + s.ownNumber.toNat
    let delay := e.decl.rank.toNat * s.od.claimWindow.getD 0
    (s.sc.state = .leaving → exec .claimReceived s = .next s1)
      ∧ (s.sc.state ≠ .leaving →
          (∀ v, e.ownership = .consumer v →
              (e.takeoverTimer ≠ none → better → exec .claimReceived s = .next (s1.put i { e with takeoverTimer := some delay }))
                ∧ (e.takeoverTimer = none ∨ ¬ better → exec .claimReceived s = .next s1))
            ∧ (∀ prior changed, e.ownership = .claiming prior changed →
                (¬ better → exec .claimReceived s = .next s1)
                  ∧ (better →
                      let lost := { e with
                        ownership := .consumer .unknown
                        slot := e.slot.voided .cancel
                        windowTimer := none
                        pendingTag := none
                        takeoverTimer := if e.decl.role = .spare ∧ e.decl.takeover = true ∧ s.sc.state = .active then some delay
                          else e.takeoverTimer }
                      exec .claimReceived s = .next (((s1.withdrawWaiting i e.slot).put i lost).post
                        (.claimOutcome .lost) e.decl.objectId (e.pendingTag.getD 0#8) e.version)))
            ∧ (e.ownership = .own →
                let yielded := { e with ownership := .yielding, refreshTimer := none }
                let handback : Outbound := ⟨.yield, .urgent, false, false, some t.source⟩
                (t.rank = 0#4 → e.decl.rank ≠ 0#4 → exec .claimReceived s = .next (match e.slot with
                    | .none => (s1.put i yielded).append i handback
                    | .waiting _ | .owed _ | .queued _ => ((s1.put i yielded).withdraw i).append i handback
                    | .inFlight o _ => s1.put i { yielded with slot := .inFlight o (.yield (some t.source)) }))
                  ∧ (t.rank ≠ 0#4 ∨ e.decl.rank = 0#4 → exec .claimReceived s = .next (s1.defend i)))
            ∧ (e.ownership = .yielding → exec .claimReceived s = .next s1))
      ∧ ∀ u : State, u.entry? i = some e → u.defend i = match e.slot with
          | .none => u.append i ⟨.publish, .urgent, false, true, none⟩
          | .waiting o => (u.withdraw i).append i { o with cls := .urgent, answer := true }
          | .owed o => if o.cls = .urgent then u.put i { e with slot := .owed { o with answer := true } }
            else (u.withdraw i).append i { o with cls := .urgent, answer := true }
          | .queued o => if o.cls = .urgent then u.put i { e with slot := .queued { o with answer := true } }
            else (u.withdraw i).append i { o with cls := .urgent, answer := true }
          | .inFlight _ _ => u

/-- A YIELD at an entry (R35, R41, R48): consumers follow a valid successor or are orphaned, a claimant it names wins, or its prior state is
updated. That R35 covers an ORPHANED prior state and its former owner is the model's reading (assumption 14), and so is the freshness deadline, which
an updated prior state leaves as it runs (assumption 29), and so is that the prior state takes a successor equal to the source as none (R48, where
R35 excepts the own station alone; assumption 34). -/
def Obligations.AYieldIsFollowedOrphansOrWinsAClaim : Prop :=
  ∀ (s : State) (t : Telegram) (rest : List Telegram) (i : Nat) (e : Entry), s.routed .yield t rest i e →
    let s1 := s.afterRouted rest
    let named : Option Byte := if t.length.toNat = 1 then t.payload.head? else none
    let follow := fun n : Byte => (s1.put i { e with
      ownership := .consumer (.foreign n 0#4 true)
      freshTimer := if e.freshness = .fresh then some (e.decl.staleFactor * e.decl.refresh) else e.freshTimer
      takeoverTimer := none }).post (.ownerChanged .newOwner) e.decl.objectId 0#8 e.version
    let valid := fun n : Byte => named = some n ∧ n ≠ s.ownNumber ∧ n ≠ t.source
    let unnamed := ∀ n, ¬ valid n
    (∀ rank any, e.ownership = .consumer (.foreign t.source rank any) →
        (∀ n, valid n → exec .yieldReceived s = .next (follow n))
          ∧ (unnamed → exec .yieldReceived s = .next
              (((s1.put i { e with ownership := .consumer (.orphaned t.source rank) }).post
                (.ownerChanged .orphaned) e.decl.objectId 0#8 e.version).takeoverLogic i)))
      ∧ (∀ rank, e.ownership = .consumer (.orphaned t.source rank) →
          (∀ n, valid n → exec .yieldReceived s = .next (follow n)) ∧ (unnamed → exec .yieldReceived s = .next s1))
      ∧ (e.ownership = .consumer .unknown ∨ e.ownership = .own ∨ e.ownership = .yielding
          ∨ (∃ o k any, e.ownership = .consumer (.foreign o k any) ∧ o ≠ t.source)
          ∨ (∃ o k, e.ownership = .consumer (.orphaned o k) ∧ o ≠ t.source) → exec .yieldReceived s = .next s1)
      ∧ ∀ prior changed, e.ownership = .claiming prior changed →
          let cancelled := ∃ o, e.slot = .inFlight o .cancel
          (named = some s.ownNumber → ¬ cancelled → exec .yieldReceived s = .next (s1.win i))
            ∧ (named ≠ some s.ownNumber ∨ cancelled →
                let updated := fun (p : View) => exec .yieldReceived s = .next (s1.put i { e with ownership := .claiming p true })
                (∀ rank any, prior = .foreign t.source rank any →
                    (∀ n, valid n → updated (.foreign n 0#4 true)) ∧ (unnamed → updated (.orphaned t.source rank)))
                  ∧ (∀ rank n, prior = .orphaned t.source rank → valid n → updated (.foreign n 0#4 true))
                  ∧ (prior = .unknown ∨ (∃ o k any, prior = .foreign o k any ∧ o ≠ t.source)
                      ∨ (∃ o k, prior = .orphaned o k ∧ (o ≠ t.source ∨ unnamed)) → exec .yieldReceived s = .next s1))

/-- A QUERY at an entry (R72): only an OWN entry whose version the asker does not hold requests an answer. -/
def Obligations.AQueryIsAnsweredByAnOwnerWithAnotherVersion : Prop :=
  ∀ (s : State) (t : Telegram) (rest : List Telegram) (i : Nat) (e : Entry), s.routed .query t rest i e →
    let s1 := s.afterRouted rest
    let held := t.flags.getLsbD 2 = false ∧ e.version = some t.version
    let answer : Outbound := ⟨.publish, e.decl.cls, false, true, none⟩
    (e.ownership ≠ .own → exec .queryReceived s = .next s1)
      ∧ (held → exec .queryReceived s = .next s1)
      ∧ (e.ownership = .own → ¬ held → exec .queryReceived s = .next (match e.slot with
          | .none => match e.spacingTimer with
            | none => s1.append i answer
            | some _ => s1.put i { e with slot := .waiting answer }
          | .waiting o => s1.put i { e with slot := .waiting { o with answer := true } }
          | .queued o => s1.put i { e with slot := .queued { o with answer := true } }
          | .owed o => s1.put i { e with slot := .owed { o with answer := true } }
          | .inFlight _ _ => s1))

/-- An outcome report at an entry (R130): the slot becomes NONE, the kind's rule is applied (R31, R32, R42, R44, R46, R65, R66, R71), the
follow-up is served (R67), an ORPHANED HOME entry left free claims (R51), and the slots are judged (R141). -/
def Obligations.AnOutcomeFreesTheSlotAndServesTheFollowUp : Prop :=
  ∀ (s : State) (i : Nat) (outcome : TxOutcome) (rest : List (Nat × TxOutcome)) (e : Entry) (o : Outbound) (f : FollowUp),
    s.rstLow = false → s.paths.reports = (i, outcome) :: rest → s.entry? i = some e → e.slot = .inFlight o f →
    let freed := { e with slot := .none }
    let s1 := { s with paths := { s.paths with reports := rest } }
    let s2 := s1.put i freed
    let finish := fun u : State => exec .outcomeReport s = .next ((u.claimIfHomeOrphaned i).judgeSlots)
    let spaced : Timer := if e.decl.spacing = 0 then none else some e.decl.spacing
    let limit := e.decl.staleFactor * e.decl.refresh
    -- a sent PUBLISH (R65), an abandoned one (R66), and their follow-ups
    (o.kind = .publish → e.ownership = .own → (∀ n, f ≠ .yield n) →
      let timed := match outcome with
        | .sent => { freed with refreshTimer := some e.decl.refresh, spacingTimer := spaced }
        | .abandoned => freed
      match f with
      | .publish cls => match timed.spacingTimer with
        | none => finish ((s1.put i timed).append i ⟨.publish, cls, false, false, none⟩)
        | some _ => finish (s1.put i { timed with slot := .waiting ⟨.publish, cls, false, false, none⟩ })
      | .none | .cancel | .yield _ => finish (s1.put i timed))
      ∧ (o.kind = .publish → e.ownership = .yielding → ∀ n, f = .yield n →
          let timed := match outcome with
            | .sent => { freed with spacingTimer := spaced }
            | .abandoned => freed
          finish ((s1.put i timed).append i ⟨.yield, .urgent, false, false, n⟩))
      ∧ (o.kind = .publish → (∃ v, e.ownership = .consumer v) → finish s2)
      -- a CLAIM: its window (R31), its failure (R32), its cancellation (R46), a win while it was in flight (R67)
      ∧ (∀ prior changed, o.kind = .claim → e.ownership = .claiming prior changed →
          (f = .cancel → finish ((s2.returnToPrior i .cancelled).takeoverIfOrphaned i))
            ∧ (f = .none → outcome = .sent → finish (s1.put i { freed with windowTimer := some (s.od.claimWindow.getD 0) }))
            ∧ (f = .none → outcome = .abandoned → finish ((s2.returnToPrior i .failed).takeoverLogic i)))
      ∧ (o.kind = .claim → (∃ v, e.ownership = .consumer v) → finish s2)
      ∧ (∀ cls, o.kind = .claim → e.ownership = .own → f = .publish cls → e.spacingTimer = none →
          finish (s2.append i ⟨.publish, cls, false, false, none⟩))
      ∧ (∀ n, o.kind = .claim → e.ownership = .yielding → f = .yield n → finish (s2.append i ⟨.yield, .urgent, false, false, n⟩))
      -- a YIELD: a handback (R42), a release or a leave (R44)
      ∧ (∀ n, o.kind = .yield → o.successor = some n → e.ownership = .yielding → f = .none →
          finish (((s1.put i { freed with
            ownership := .consumer (.foreign n 0#4 true), freshTimer := some limit
            refreshTimer := none, spacingTimer := none, windowTimer := none, takeoverTimer := none }).post
              (.ownershipLost .handback) e.decl.objectId 0#8 e.version).post (.ownerChanged .newOwner) e.decl.objectId 0#8 e.version))
      ∧ (o.kind = .yield → o.successor = none → e.ownership = .yielding → f = .none →
          let released := s1.put i { freed with
            ownership := .consumer .unknown, freshTimer := some limit, pendingTag := none
            refreshTimer := none, spacingTimer := none, windowTimer := none, takeoverTimer := none }
          match e.pendingTag with
          | none => finish released
          | some tag => finish (released.post (.releaseOutcome (match outcome with
            | .sent => .released
            | .abandoned => .unannounced)) e.decl.objectId tag e.version))
      -- a QUERY (R71)
      ∧ (o.kind = .query → f = .none → finish s2)
      ∧ ∀ (u : State) (e' : Entry), u.entry? i = some e' →
          ((e'.decl.role = .home ∧ e'.slot = .none ∧ ∃ owner k, e'.ownership = .consumer (.orphaned owner k)) →
              u.claimIfHomeOrphaned i = u.takeoverLogic i)
            ∧ (¬ (e'.decl.role = .home ∧ e'.slot = .none ∧ ∃ owner k, e'.ownership = .consumer (.orphaned owner k)) →
                u.claimIfHomeOrphaned i = u)

/-! ## The Object Directory: its timers -/

/-- The freshness deadline (R73) and the spacing timer (R63) of an entry expire. One that is stopped or not due does not (R7): the command leaves the state
as it is, by the model's choice (assumption 2). -/
def Obligations.AFreshnessDeadlineGoesStaleAndSpacingReleasesAWaitingPublish : Prop :=
  (∀ (s : State) (i : Nat) (e : Entry), s.rstLow = false → s.entry? i = some e → e.freshTimer = some 0 →
    let stale := s.put i { e with freshness := .stale, freshTimer := none }
    exec (.freshnessDeadlineExpiry i) s = .next
      (if e.decl.notify = .none then stale else stale.post .stale e.decl.objectId 0#8 e.version))
    ∧ (∀ (s : State) (i : Nat) (e : Entry), s.rstLow = false → s.entry? i = some e → e.spacingTimer = some 0 →
        let stopped := s.put i { e with spacingTimer := none }
        (∀ o, e.slot = .waiting o → exec (.spacingTimerExpiry i) s = .next (stopped.append i o))
          ∧ ((∀ o, e.slot ≠ .waiting o) → exec (.spacingTimerExpiry i) s = .next stopped))
    ∧ ∀ (s : State) (i : Nat),
        ((∀ e, s.entry? i = some e → e.freshTimer ≠ some 0) → exec (.freshnessDeadlineExpiry i) s = .next s)
          ∧ ((∀ e, s.entry? i = some e → e.spacingTimer ≠ some 0) → exec (.spacingTimerExpiry i) s = .next s)

/-- The refresh timer (R60, R61). That it then stops until a PUBLISH of the entry is sent is read from R60 and R66 (assumption 16). One that is stopped or
not due, or of an entry that is not OWN, does not expire (R7): the command leaves the state as it is, by the model's choice (assumption 2). -/
def Obligations.ARefreshTimerRequestsShedsOrRestarts : Prop :=
  (∀ (s : State) (i : Nat) (e : Entry), s.rstLow = false → s.entry? i = some e → e.refreshTimer = some 0 → e.ownership = .own →
    let restarted := { e with refreshTimer := some e.decl.refresh }
    let refresh : Outbound := ⟨.publish, e.decl.cls, true, false, none⟩
    (e.slot ≠ .none → exec (.refreshTimerExpiry i) s = .next (s.put i restarted))
      ∧ (e.slot = .none → s.ts.backlog = true → e.decl.cls = .routine →
          exec (.refreshTimerExpiry i) s = .next ((s.put i restarted).bump .shed))
      ∧ (e.slot = .none → s.ts.backlog = false ∨ e.decl.cls = .urgent →
          exec (.refreshTimerExpiry i) s = .next (match e.spacingTimer with
            | none => (s.put i { e with refreshTimer := none }).append i refresh
            | some _ => s.put i { e with refreshTimer := none, slot := .waiting refresh })))
    ∧ ∀ (s : State) (i : Nat), (∀ e, s.entry? i = some e → e.refreshTimer ≠ some 0 ∨ e.ownership ≠ .own) →
        exec (.refreshTimerExpiry i) s = .next s

/-- The claim window (R36) and the takeover timer (R52). One that is stopped or not due, or of an entry in which it does not run, does not expire (R7): the
command leaves the state as it is, by the model's choice (assumption 2). -/
def Obligations.AClaimWindowWinsAndATakeoverTimerClaims : Prop :=
  (∀ (s : State) (i : Nat) (e : Entry) (prior : View) (changed : Bool), s.rstLow = false → s.entry? i = some e →
    e.windowTimer = some 0 → e.ownership = .claiming prior changed → exec (.claimWindowExpiry i) s = .next (s.win i))
    ∧ (∀ (s : State) (i : Nat) (e : Entry), s.entry? i = some e →
        let v := match e.version with
          | none => 0#8
          | some held => held + 1#8
        let won := { e with
          ownership := .own
          version := some v
          freshness := .fresh
          freshTimer := none
          refreshTimer := some e.decl.refresh
          windowTimer := none
          takeoverTimer := none
          pendingTag := none }
        let first : Outbound := ⟨.publish, .urgent, false, false, none⟩
        s.win i = (match e.slot with
          | .none => (s.put i won).append i first
          | .waiting _ | .owed _ | .queued _ => ((s.put i won).withdraw i).append i first
          | .inFlight o _ => s.put i { won with slot := .inFlight o (.publish .urgent) }).post
            (.claimOutcome .won) e.decl.objectId (e.pendingTag.getD 0#8) (some v))
    ∧ (∀ (s : State) (i : Nat) (e : Entry), s.rstLow = false → s.entry? i = some e → e.takeoverTimer = some 0 →
        s.sc.state = .active → e.decl.role = .spare → e.decl.takeover = true →
        e.ownership = .consumer .unknown ∨ (∃ o k, e.ownership = .consumer (.orphaned o k)) →
        ((∀ o f, e.slot = .inFlight o f → o.kind = .claim ∧ f = .cancel) →
            exec (.takeoverTimerExpiry i) s = .next (s.startClaim i))
          ∧ (∀ o f, e.slot = .inFlight o f → ¬ (o.kind = .claim ∧ f = .cancel) → exec (.takeoverTimerExpiry i) s =
              .next (s.put i { e with takeoverTimer := some (e.decl.rank.toNat * s.od.claimWindow.getD 0) })))
    ∧ ∀ (s : State) (i : Nat),
        ((∀ e, s.entry? i = some e → e.windowTimer ≠ some 0 ∨ ∀ prior changed, e.ownership ≠ .claiming prior changed) →
            exec (.claimWindowExpiry i) s = .next s)
          ∧ ((∀ e, s.entry? i = some e → e.takeoverTimer ≠ some 0 ∨ s.sc.state ≠ .active ∨ e.decl.role ≠ .spare ∨ e.decl.takeover = false
                ∨ (e.ownership ≠ .consumer .unknown ∧ ∀ o k, e.ownership ≠ .consumer (.orphaned o k))) →
              exec (.takeoverTimerExpiry i) s = .next s)

/-- The millisecond timebase (R193): the clock advances and wraps, and every running timer has one millisecond less (assumption 5). -/
def Obligations.AMillisecondAdvancesTheClockAndEveryRunningTimer : Prop :=
  ∀ s : State, s.rstLow = false →
    let less : Timer → Timer := fun timer => match timer with
      | none => none
      | some left => some (left - 1)
    exec .millisecondTick s = .next { s with
      eu := { s.eu with clock := s.eu.clock + 1#16 }
      od := { s.od with entries := s.od.entries.map fun e => { e with
        freshTimer := less e.freshTimer, refreshTimer := less e.refreshTimer, spacingTimer := less e.spacingTimer
        windowTimer := less e.windowTimer, takeoverTimer := less e.takeoverTimer } }
      pm := { s.pm with rows := s.pm.rows.map fun row => { row with deadline := less row.deadline } }
      sc := { s.sc with joinTimer := less s.sc.joinTimer, presenceTimer := less s.sc.presenceTimer, muteTimer := less s.sc.muteTimer }
      il := { s.il with phase := match s.il.phase with
        | .reading (.wait left) failed => .reading (.wait (left - 1)) failed
        | .reading .header failed => .reading .header failed
        | .reading .remainder failed => .reading .remainder failed
        | .awaitingLoad => .awaitingLoad
        | .installed => .installed } }

/-! ## The Object Directory and the Transmit Scheduler: shared operations -/

/-- The start of a claim (R29), the takeover logic (R51) and the return to the prior state (R6, R28, R35, R37). -/
def Obligations.AClaimStartsAndEndsAtItsPriorState : Prop :=
  ∀ (s : State) (i : Nat) (e : Entry), s.entry? i = some e →
    (∀ view, e.ownership = .consumer view →
      let claiming := { e with ownership := .claiming view false, takeoverTimer := none }
      let claim : Outbound := ⟨.claim, .urgent, false, false, none⟩
      s.startClaim i = match e.slot with
        | .none => (s.put i claiming).append i claim
        | .waiting _ | .owed _ | .queued _ => ((s.put i claiming).withdraw i).append i claim
        | .inFlight o f => if o.kind = .claim ∧ f = .cancel then s.put i { claiming with slot := .inFlight o .none } else s)
      ∧ (let lapsed := e.ownership = .consumer .unknown ∨ ∃ o k, e.ownership = .consumer (.orphaned o k)
        (s.sc.state ≠ .active ∨ ¬ lapsed → s.takeoverLogic i = s)
          ∧ (s.sc.state = .active → lapsed →
              (e.decl.role = .home → s.takeoverLogic i = s.startClaim i)
                ∧ (e.decl.role = .spare → e.decl.takeover = true → s.takeoverLogic i =
                    s.put i { e with takeoverTimer := some (e.decl.rank.toNat * s.od.claimWindow.getD 0) })
                ∧ (e.decl.role = .listen ∨ (e.decl.role = .spare ∧ e.decl.takeover = false) → s.takeoverLogic i = s)))
      ∧ ((∃ o k, e.ownership = .consumer (.orphaned o k)) → s.takeoverIfOrphaned i = s.takeoverLogic i)
      ∧ ((∀ o k, e.ownership ≠ .consumer (.orphaned o k)) → s.takeoverIfOrphaned i = s)
      ∧ ∀ prior changed outcome, e.ownership = .claiming prior changed →
          let ended := (s.put i { e with ownership := .consumer prior, windowTimer := none, pendingTag := none }).post
            (.claimOutcome outcome) e.decl.objectId (e.pendingTag.getD 0#8) e.version
          s.returnToPrior i outcome = match changed, prior with
            | true, .foreign _ _ _ => ended.post (.ownerChanged .newOwner) e.decl.objectId 0#8 e.version
            | true, .orphaned _ _ => ended.post (.ownerChanged .orphaned) e.decl.objectId 0#8 e.version
            | true, .unknown => ended
            | false, _ => ended

/-- An append (R133): at the tail of the class queue with the slot QUEUED, or of the owed list with the slot OWED when the queue is full;
and BACKLOG at each change of the ROUTINE occupancy (R138). -/
def Obligations.AnAppendTakesAPlaceOrIsOwed : Prop :=
  (∀ (s : State) (i : Nat) (e : Entry) (o : Outbound), s.entry? i = some e →
    (o.cls = .urgent → s.ts.urgent.length < 8 →
        s.append i o = { s.put i { e with slot := .queued o } with ts := { s.ts with urgent := s.ts.urgent ++ [i] } })
      ∧ (o.cls = .urgent → 8 ≤ s.ts.urgent.length →
          let owed := s.put i { e with slot := .owed o }
          s.append i o = { owed with od := { owed.od with urgentOwed := s.od.urgentOwed ++ [i] } })
      ∧ (o.cls = .routine → s.ts.routine.length < 16 →
          s.append i o = { s.put i { e with slot := .queued o } with ts := { s.ts with routine := s.ts.routine ++ [Ref.entry i] } }.judgeBacklog)
      ∧ (o.cls = .routine → 16 ≤ s.ts.routine.length →
          let owed := s.put i { e with slot := .owed o }
          s.append i o = { owed with od := { owed.od with routineOwed := s.od.routineOwed ++ [i] } }))
    ∧ ∀ s : State,
        (s.ts.backlog = false → 12 ≤ s.ts.routine.length → s.judgeBacklog =
            { s with ts := { s.ts with backlog := true } }.post (.backlog .entered) s.ownId 0#8 (some 0#8))
          ∧ (s.ts.backlog = false → s.ts.routine.length ≤ 11 → s.judgeBacklog = s)
          ∧ (s.ts.backlog = true → 5 ≤ s.ts.routine.length → s.judgeBacklog = s)
          ∧ (s.ts.backlog = true → s.ts.routine.length ≤ 4 → s.judgeBacklog =
              { s with ts := { s.ts with backlog := false } }.post (.backlog .cleared) s.ownId 0#8 (some 0#8))

/-- A withdrawal (R134), and the offer of the place it frees (R135): the URGENT place to the head of the URGENT-owed list, the ROUTINE place
to the owed PRESENCE first and then to the head of the ROUTINE-owed list. -/
def Obligations.AWithdrawalFreesAPlaceThatIsOffered : Prop :=
  (∀ (s : State) (i : Nat) (e : Entry), s.entry? i = some e →
    let freed := s.put i { e with slot := .none }
    (e.slot = .none ∨ (∃ o f, e.slot = .inFlight o f) → s.withdraw i = s)
      ∧ (∀ o, e.slot = .waiting o → s.withdraw i = freed)
      ∧ (∀ o, e.slot = .owed o → s.withdraw i = { freed with od := { freed.od with
          urgentOwed := s.od.urgentOwed.erase i, routineOwed := s.od.routineOwed.erase i } })
      ∧ (∀ o, e.slot = .queued o → o.cls = .urgent →
          s.withdraw i = { freed with ts := { s.ts with urgent := s.ts.urgent.erase i } }.offerUrgent)
      ∧ (∀ o, e.slot = .queued o → o.cls = .routine →
          s.withdraw i = ({ freed with ts := { s.ts with routine := s.ts.routine.erase (Ref.entry i) } }.judgeBacklog).offerRoutine))
    ∧ (∀ (s : State) (i : Nat) (rest : List Nat) (e : Entry) (o : Outbound), s.od.urgentOwed = i :: rest → s.entry? i = some e →
        e.slot = .owed o → s.ts.urgent.length < 8 →
        let placed := s.put i { e with slot := .queued o }
        s.offerUrgent = { placed with od := { placed.od with urgentOwed := rest }, ts := { s.ts with urgent := s.ts.urgent ++ [i] } })
    ∧ (∀ s : State, s.od.urgentOwed = [] ∨ 8 ≤ s.ts.urgent.length → s.offerUrgent = s)
    ∧ (∀ (s : State) (st : PresenceStatus), s.sc.presence = .owed st → s.ts.routine.length < 16 →
        s.offerRoutine = { s with
          sc := { s.sc with presence := .queued st }
          ts := { s.ts with routine := s.ts.routine ++ [Ref.presence] } }.judgeBacklog)
    ∧ (∀ (s : State) (i : Nat) (rest : List Nat) (e : Entry) (o : Outbound), (∀ st, s.sc.presence ≠ .owed st) →
        s.od.routineOwed = i :: rest → s.entry? i = some e → e.slot = .owed o → s.ts.routine.length < 16 →
        let placed := s.put i { e with slot := .queued o }
        s.offerRoutine = { placed with
          od := { placed.od with routineOwed := rest }
          ts := { s.ts with routine := s.ts.routine ++ [Ref.entry i] } }.judgeBacklog)
    ∧ ∀ s : State, 16 ≤ s.ts.routine.length ∨ ((∀ st, s.sc.presence ≠ .owed st) ∧ s.od.routineOwed = []) → s.offerRoutine = s

/-! ## Invariants every step keeps -/

/-- R195, R196: a record that stands in the event queue stays there, in its place, until it is popped at the head or a full restart empties
the queue. -/
def Obligations.RecordsLeaveTheEventQueueOnlyAtItsHead : Prop :=
  ∀ (c : Instr) (s t : State), exec c s = .next t → c ≠ .powerUp → c ≠ .rstNRelease → c ≠ .restartFull →
    s.eu.queue <+: t.eu.queue
      ∨ ((c = .eventNext ∨ ∃ addr byte, c = .portWrite addr byte ∧ addr.toNat = 51)
          ∧ ∃ r rest, s.eu.queue = r :: rest ∧ t.eu.window = r ∧ rest <+: t.eu.queue)

/-- R195, R197: the event queue never holds more than 32 records, and the lost count is above 0 only while it holds 32. -/
def Obligations.TheEventQueueHoldsAtMost32AndLosesOnlyWhenFull : Prop :=
  ∀ s t : State, s.EventsInv → step s = .next t → t.EventsInv

/-- R131, R132, R138: the capacities, nothing owed while its queue has a place, and BACKLOG by its thresholds. -/
def Obligations.NothingIsOwedWhileItsQueueHasAPlace : Prop :=
  ∀ s t : State, s.QueuesInv → step s = .next t → t.QueuesInv

/-- R161, R172, R173, R204: the areas of the port, the response area in DONE among them, and the staging buffer stay within their sizes, the stored
ones in canonical form. The premise on the tables, whose values the responses show, is an invariant of its own. -/
def Obligations.TheBuffersStayWithinTheirSizes : Prop :=
  ∀ s t : State, s.BuffersInv → s.TablesInv → step s = .next t → t.BuffersInv

/-- R1, R2, R11, R77, R106: the tables keep their sizes, object ids stay unique, declared fields stay in range, and no value is longer than its
entry's maximum length. The staging buffer need not be bounded for it. -/
def Obligations.TheTablesKeepTheirSizesAndRanges : Prop :=
  ∀ s t : State, s.TablesInv → step s = .next t → t.TablesInv

/-- R26, R27, R54, R88, R127 to R129, R141: own states only in ACTIVE and LEAVING and never at a LISTEN entry, every slot and follow-up
of a kind its entry's state allows, and a LEAVING PRESENCE only once every slot is NONE. -/
def Obligations.OwnStatesAndSlotsFitTheStationState : Prop :=
  ∀ s t : State, s.OwnershipInv → step s = .next t → t.OwnershipInv

/-- R131, R132: an entry is referenced exactly where its slot says, once, and the PRESENCE exactly where its record says. The premise on the
ownership states is an invariant of its own. -/
def Obligations.EveryReferenceStandsExactlyWhereItsSlotSays : Prop :=
  ∀ s t : State, s.OwnershipInv → s.ReferencesInv → step s = .next t → t.ReferencesInv

/-- The invariants hold right after reset. -/
def Obligations.TheInvariantsHoldAfterReset : Prop :=
  State.reset.EventsInv ∧ State.reset.QueuesInv ∧ State.reset.BuffersInv ∧ State.reset.TablesInv ∧ State.reset.OwnershipInv
    ∧ State.reset.ReferencesInv
end

