-- ==== Sys2Proof/Laws/Events.lean ====
section
/-! SUPPORT. The Event Unit's operations: what a posting, an increment and a pop can do, and the bound of the queue kept by each. -/

namespace Sys2Proof.Machine

/-- A posting at a queue with room: stamped and appended, nothing else. -/
theorem State.post_room (s : State) (k : EventKind) (id : BitVec 12) (tag : Byte) (v : Option Byte) (h : s.eu.queue.length < 32) :
    s.post k id tag v = { s with eu := { s.eu with queue := s.eu.queue ++ [⟨k, id, tag, v, s.eu.clock⟩] } } := by
  unfold State.post
  rw [if_pos h]

/-- A posting at a full queue: one more lost, up to 255, nothing else. -/
theorem State.post_full (s : State) (k : EventKind) (id : BitVec 12) (tag : Byte) (v : Option Byte) (h : ¬ s.eu.queue.length < 32) :
    s.post k id tag v = { s with eu := { s.eu with lost := if s.eu.lost = 255#8 then 255#8 else s.eu.lost + 1#8 } } := by
  unfold State.post
  rw [if_neg h]

/-- A posting changes the event queue and the lost count alone. -/
theorem State.post_eq (s : State) (k : EventKind) (id : BitVec 12) (tag : Byte) (v : Option Byte) :
    ∃ q l, s.post k id tag v = { s with eu := { s.eu with queue := q, lost := l } } := by
  by_cases h : s.eu.queue.length < 32
  · exact ⟨_, s.eu.lost, s.post_room k id tag v h⟩
  · exact ⟨s.eu.queue, _, s.post_full k id tag v h⟩

theorem State.eventsInv_post (s : State) (k : EventKind) (id : BitVec 12) (tag : Byte) (v : Option Byte) (h : s.EventsInv) :
    (s.post k id tag v).EventsInv := by
  by_cases hq : s.eu.queue.length < 32
  · rw [s.post_room k id tag v hq]
    refine ⟨by simp only [List.length_append, List.length_cons, List.length_nil]; omega, fun hl => ?_⟩
    exact absurd (h.2 hl) (by omega)
  · rw [s.post_full k id tag v hq]
    exact ⟨h.1, fun _ => by have := h.1; show s.eu.queue.length = 32; omega⟩

/-- An increment changes the counters, the event queue, the lost count and the harvest flag alone. -/
theorem State.bump_eq (s : State) (c : Counter) :
    ∃ q l n a, s.bump c = { s with eu := { s.eu with queue := q, lost := l, counters := n, harvestArmed := a } } := by
  unfold State.bump
  dsimp only
  split
  · exact ⟨s.eu.queue, s.eu.lost, s.eu.counters, s.eu.harvestArmed, rfl⟩
  · split
    · unfold State.postStation
      obtain ⟨q, l, hp⟩ := State.post_eq { s with eu := { s.eu with counters := s.eu.counters.set c (s.eu.counters.get c + 1#16), harvestArmed := false } }
        .harvest s.ownId 0#8 (some 0#8)
      exact ⟨q, l, _, _, hp⟩
    · exact ⟨s.eu.queue, s.eu.lost, _, s.eu.harvestArmed, rfl⟩

theorem State.eventsInv_bump (s : State) (c : Counter) (h : s.EventsInv) : (s.bump c).EventsInv := by
  unfold State.bump
  dsimp only
  split
  · exact h
  · split
    · exact State.eventsInv_post _ _ _ _ _ h
    · exact h

/-- A pop keeps the bound: a LOST record takes the place it frees while records are lost. -/
theorem State.eventsInv_popEvent (s : State) (h : s.EventsInv) : s.popEvent.EventsInv := by
  unfold State.popEvent
  split
  · exact h
  · rename_i r rest hq
    have h1 : rest.length + 1 ≤ 32 := by have := h.1; rw [hq] at this; simpa using this
    split
    · rename_i hl
      exact ⟨by show rest.length ≤ 32; omega, fun hn => absurd hl hn⟩
    · rename_i hl
      have h2 : rest.length + 1 = 32 := by have := h.2 hl; rw [hq] at this; simpa using this
      refine ⟨?_, fun hn => absurd rfl hn⟩
      show (rest ++ [_]).length ≤ 32
      simp only [List.length_append, List.length_cons, List.length_nil]; omega

/-- The counter incremented reads one more, every other counter as before. -/
theorem Counters.get_set (n : Counters) (c d : Counter) (v : BitVec 16) : (n.set c v).get d = if d = c then v else n.get d := by
  cases c <;> cases d <;> rfl

end Sys2Proof.Machine
end

