-- ==== Sys2Proof/Laws/Outbound.lean ====
section
/-! SUPPORT. What the operations of the directory and the outbound system leave alone: one relation, and one lemma per shared operation. -/

namespace Sys2Proof.Machine

/-- t differs from s at most in the entries' dynamic fields, the owed lists, the queues, BACKLOG, the presence record, the event queue,
the lost count, the counters and the harvest flag. -/
structure State.Outside (s t : State) : Prop where
  rstLow : t.rstLow = s.rstLow
  lc : t.lc = s.lc
  tf : t.tf = s.tf
  pm : t.pm = s.pm
  il : t.il = s.il
  lp : t.lp = s.lp
  paths : t.paths = s.paths
  draws : t.draws = s.draws
  pending : t.pending = s.pending
  sc : { t.sc with presence := s.sc.presence } = s.sc
  window : t.od.claimWindow = s.od.claimWindow
  decls : t.od.entries.map Entry.decl = s.od.entries.map Entry.decl
  mask : t.eu.mask = s.eu.mask
  clock : t.eu.clock = s.eu.clock
  shown : t.eu.window = s.eu.window

namespace State.Outside

theorem refl (s : State) : s.Outside s := ⟨rfl, rfl, rfl, rfl, rfl, rfl, rfl, rfl, rfl, rfl, rfl, rfl, rfl, rfl, rfl⟩

theorem trans {s t u : State} (h : s.Outside t) (k : t.Outside u) : s.Outside u where
  rstLow := k.rstLow.trans h.rstLow
  lc := k.lc.trans h.lc
  tf := k.tf.trans h.tf
  pm := k.pm.trans h.pm
  il := k.il.trans h.il
  lp := k.lp.trans h.lp
  paths := k.paths.trans h.paths
  draws := k.draws.trans h.draws
  pending := k.pending.trans h.pending
  sc := by
    have h1 := h.sc
    have h2 := k.sc
    have h3 : { u.sc with presence := s.sc.presence } = { ({ u.sc with presence := t.sc.presence } : Sc) with presence := s.sc.presence } := rfl
    rw [h3, h2]
    exact h1
  window := k.window.trans h.window
  decls := k.decls.trans h.decls
  mask := k.mask.trans h.mask
  clock := k.clock.trans h.clock
  shown := k.shown.trans h.shown

/-- The station state, number and timers are those of s. -/
theorem state {s t : State} (h : s.Outside t) : t.sc.state = s.sc.state := by
  have h1 := congrArg (fun c : Sc => c.state) h.sc
  exact h1

theorem number {s t : State} (h : s.Outside t) : t.sc.number = s.sc.number := by
  have h1 := congrArg (fun c : Sc => c.number) h.sc
  exact h1

theorem ownNumber {s t : State} (h : s.Outside t) : t.ownNumber = s.ownNumber := by
  unfold State.ownNumber; rw [h.number]

theorem length {s t : State} (h : s.Outside t) : t.od.entries.length = s.od.entries.length := by
  have := congrArg List.length h.decls
  simpa using this

theorem post (s : State) (k : EventKind) (id : BitVec 12) (tag : Byte) (v : Option Byte) : s.Outside (s.post k id tag v) := by
  obtain ⟨q, l, h⟩ := s.post_eq k id tag v
  rw [h]
  exact ⟨rfl, rfl, rfl, rfl, rfl, rfl, rfl, rfl, rfl, rfl, rfl, rfl, rfl, rfl, rfl⟩

theorem postStation (s : State) (k : EventKind) (tag : Byte) : s.Outside (s.postStation k tag) := post s _ _ _ _

theorem bump (s : State) (c : Counter) : s.Outside (s.bump c) := by
  obtain ⟨q, l, n, a, h⟩ := s.bump_eq c
  rw [h]
  exact ⟨rfl, rfl, rfl, rfl, rfl, rfl, rfl, rfl, rfl, rfl, rfl, rfl, rfl, rfl, rfl⟩

/-- Acting on an entry leaves alone what the action leaves alone. -/
theorem withEntry {s : State} {i : Nat} {k : Entry → State} (h : ∀ e, s.entry? i = some e → s.Outside (k e)) :
    s.Outside (s.withEntry i k) := by
  unfold State.withEntry
  split
  · exact refl s
  · rename_i e he
    exact h e he

theorem decls_modify {f : Entry → Entry} (hf : ∀ e, (f e).decl = e.decl) :
    ∀ (l : List Entry) (k : Nat), (l.modify k f).map Entry.decl = l.map Entry.decl
  | [], 0 => rfl
  | [], _ + 1 => rfl
  | e :: l, 0 => by simp [hf]
  | e :: l, k + 1 => by
    have := decls_modify hf l k
    simpa using this

/-- Changing dynamic fields of an entry. -/
theorem modify (s : State) (i : Nat) {f : Entry → Entry} (hf : ∀ e, (f e).decl = e.decl) : s.Outside (s.modify i f) := by
  unfold State.modify
  split
  · exact refl s
  · exact ⟨rfl, rfl, rfl, rfl, rfl, rfl, rfl, rfl, rfl, rfl, rfl, decls_modify hf _ _, rfl, rfl, rfl⟩

theorem setSlot (s : State) (i : Nat) (slot : Slot) : s.Outside (s.setSlot i slot) := modify s i fun _ => rfl

theorem postEntry (s : State) (i : Nat) (k : EventKind) (tag : Byte) : s.Outside (s.postEntry i k tag) :=
  withEntry fun _ _ => post s _ _ _ _

theorem postAll (i : Nat) : ∀ (rs : List (EventKind × Byte)) (s : State), s.Outside (s.postAll i rs)
  | [], s => refl s
  | r :: rs, s => (postEntry s i r.1 r.2).trans (postAll i rs _)

/-! ### Queues and owed lists -/

/-- A change of the queues or of BACKLOG. -/
theorem ts (s : State) (x : Ts) : s.Outside { s with ts := x } :=
  ⟨rfl, rfl, rfl, rfl, rfl, rfl, rfl, rfl, rfl, rfl, rfl, rfl, rfl, rfl, rfl⟩

/-- A change of the presence record. -/
theorem presence (s : State) (p : Presence) : s.Outside { s with sc := { s.sc with presence := p } } :=
  ⟨rfl, rfl, rfl, rfl, rfl, rfl, rfl, rfl, rfl, rfl, rfl, rfl, rfl, rfl, rfl⟩

theorem judgeBacklog (s : State) : s.Outside s.judgeBacklog := by
  unfold State.judgeBacklog
  split
  · exact refl s
  · exact trans (ts s _) (postStation _ _ _)
  · exact trans (ts s _) (postStation _ _ _)

/-- A change of the queues or the owed lists. -/
theorem queues (s : State) (ts : Ts) (u r : List Nat) :
    s.Outside { s with ts := ts, od := { s.od with urgentOwed := u, routineOwed := r } } :=
  ⟨rfl, rfl, rfl, rfl, rfl, rfl, rfl, rfl, rfl, rfl, rfl, rfl, rfl, rfl, rfl⟩

theorem joinRoutine (s : State) (r : Ref) : s.Outside (s.joinRoutine r) :=
  trans (queues s _ s.od.urgentOwed s.od.routineOwed) (judgeBacklog _)

theorem append (s : State) (i : Nat) (o : Outbound) : s.Outside (s.append i o) := by
  unfold State.append
  split
  · split
    · exact trans (setSlot s i _) (queues _ _ _ _)
    · exact trans (setSlot s i _) (queues _ _ _ _)
  · split
    · exact trans (setSlot s i _) (joinRoutine _ _)
    · exact trans (setSlot s i _) (queues _ _ _ _)

theorem promoted (e : Entry) : e.promoted.decl = e.decl := by
  unfold Entry.promoted; split <;> rfl

theorem offerUrgent (s : State) : s.Outside s.offerUrgent := by
  unfold State.offerUrgent
  split
  · exact refl s
  · split
    · exact trans (queues s _ _ s.od.routineOwed) (modify _ _ promoted)
    · exact refl s

theorem offerRoutine (s : State) : s.Outside s.offerRoutine := by
  unfold State.offerRoutine
  split
  · split
    · exact trans (presence s _) (joinRoutine _ _)
    all_goals
      split
      · exact refl s
      · exact trans (trans (queues s s.ts s.od.urgentOwed _) (modify _ _ promoted)) (joinRoutine _ _)
  · exact refl s

theorem freedRoutine (s : State) : s.Outside s.freedRoutine := trans (judgeBacklog s) (offerRoutine _)

theorem withdraw (s : State) (i : Nat) : s.Outside (s.withdraw i) := by
  refine withEntry fun e _ => ?_
  dsimp only
  split
  · exact refl s
  · exact refl s
  · exact setSlot s i _
  · exact trans (setSlot s i _) (queues _ _ _ _)
  · split
    · exact trans (trans (setSlot s i _) (queues _ _ _ _)) (offerUrgent _)
    · exact trans (trans (setSlot s i _) (queues _ _ _ _)) (freedRoutine _)

theorem requestPresence (s : State) (st : PresenceStatus) : s.Outside (s.requestPresence st) := by
  unfold State.requestPresence
  split
  · split
    · exact trans (presence s _) (joinRoutine _ _)
    · exact ⟨rfl, rfl, rfl, rfl, rfl, rfl, rfl, rfl, rfl, rfl, rfl, rfl, rfl, rfl, rfl⟩
  all_goals exact ⟨rfl, rfl, rfl, rfl, rfl, rfl, rfl, rfl, rfl, rfl, rfl, rfl, rfl, rfl, rfl⟩

/-- Taking the entries in index order leaves alone what each step leaves alone. -/
theorem eachEntry {f : State → Nat → State} (h : ∀ (s : State) i, s.Outside (f s i)) (s : State) : s.Outside (s.eachEntry f) := by
  unfold State.eachEntry
  generalize List.range' 1 s.od.entries.length = l
  induction l generalizing s with
  | nil => exact refl s
  | cons i l ih => exact trans (h s i) (ih (f s i))

theorem returnToPrior (s : State) (i : Nat) (o : ClaimOutcome) : s.Outside (s.returnToPrior i o) := by
  refine withEntry fun e _ => ?_
  split
  · refine trans ?_ (postAll _ _ _)
    exact modify s i fun _ => rfl
  all_goals exact refl s

end State.Outside

end Sys2Proof.Machine
end

