-- ==== Sys2Proof/Laws/Ownership.lean ====
section
/-! SUPPORT. The operations of the ownership protocol, and of the expiries and reports at one entry, leave everything outside the directory and the outbound system alone. -/

namespace Sys2Proof.Machine.State.Outside

theorem publishSpaced (s : State) (i : Nat) (e : Entry) (o : Outbound) : s.Outside (s.publishSpaced i e o) := by
  unfold State.publishSpaced
  split
  · exact setSlot s i _
  · exact append s i o

theorem requestChange (s : State) (i : Nat) : s.Outside (s.requestChange i) := by
  refine withEntry fun e _ => ?_
  split
  · exact publishSpaced s i e _
  all_goals first | exact setSlot s i _ | exact refl s

theorem requestAnswer (s : State) (i : Nat) : s.Outside (s.requestAnswer i) := by
  refine withEntry fun e _ => ?_
  split
  · exact publishSpaced s i e _
  all_goals first | exact setSlot s i _ | exact refl s

theorem defend (s : State) (i : Nat) : s.Outside (s.defend i) := by
  refine withEntry fun e _ => ?_
  split
  · exact append s i _
  · exact trans (withdraw s i) (append _ _ _)
  · split
    · exact setSlot s i _
    · exact trans (withdraw s i) (append _ _ _)
  · split
    · exact setSlot s i _
    · exact trans (withdraw s i) (append _ _ _)
  · exact refl s

theorem startClaim (s : State) (i : Nat) : s.Outside (s.startClaim i) := by
  refine withEntry fun e _ => ?_
  split
  · exact refl s
  · exact refl s
  · exact refl s
  · split
    · exact refl s
    · rename_i view _ _
      have h1 : s.Outside (s.modify i fun e => { e with ownership := .claiming view false, takeoverTimer := none }) :=
        modify s i fun _ => rfl
      dsimp only
      split
      · exact h1.trans (setSlot _ _ _)
      · exact h1.trans (append _ _ _)
      all_goals exact h1.trans (trans (withdraw _ _) (append _ _ _))

theorem startTakeover (s : State) (i : Nat) : s.Outside (s.startTakeover i) := modify s i fun _ => rfl

theorem takeoverLogic (s : State) (i : Nat) : s.Outside (s.takeoverLogic i) := by
  refine withEntry fun e _ => ?_
  split
  · split
    all_goals first
      | exact refl s
      | (split
         · exact startClaim s i
         · split
           · exact startTakeover s i
           · exact refl s)
  · exact refl s

theorem takeoverIfOrphaned (s : State) (i : Nat) : s.Outside (s.takeoverIfOrphaned i) := by
  refine withEntry fun e _ => ?_
  split
  · exact takeoverLogic s i
  all_goals exact refl s

theorem claimIfHomeOrphaned (s : State) (i : Nat) : s.Outside (s.claimIfHomeOrphaned i) := by
  refine withEntry fun e _ => ?_
  split
  · exact takeoverIfOrphaned s i
  · exact refl s

theorem win (s : State) (i : Nat) : s.Outside (s.win i) := by
  refine withEntry fun e _ => ?_
  have h1 : s.Outside (s.modify i Entry.won) := modify s i fun _ => rfl
  refine trans ?_ (postEntry _ _ _ _)
  split
  · exact h1.trans (append _ _ _)
  · exact h1.trans (trans (withdraw _ _) (append _ _ _))
  · exact h1.trans (trans (withdraw _ _) (append _ _ _))
  · exact h1.trans (trans (withdraw _ _) (append _ _ _))
  · exact h1.trans (setSlot _ _ _)

theorem voidClaim (s : State) (i : Nat) : s.Outside (s.voidClaim i) := by
  refine withEntry fun e _ => ?_
  split
  all_goals first | exact refl s | exact withdraw s i | exact setSlot s i _

theorem loseToClaim (s : State) (i : Nat) : s.Outside (s.loseToClaim i) := by
  refine withEntry fun e _ => ?_
  have h1 : s.Outside (((s.voidClaim i).modify i fun e => { e with ownership := .consumer .unknown, windowTimer := none, pendingTag := none }).postEntry i (.claimOutcome .lost) e.tag) := by
    refine trans (trans (voidClaim s i) ?_) (postEntry _ _ _ _)
    exact modify _ i fun _ => rfl
  dsimp only
  split
  · exact h1.trans (startTakeover _ _)
  · exact h1

theorem cancelClaim (s : State) (i : Nat) : s.Outside (s.cancelClaim i) := by
  refine withEntry fun e _ => ?_
  split
  all_goals first
    | exact setSlot s i _
    | exact trans (trans (withdraw s i) (returnToPrior _ _ _)) (takeoverIfOrphaned _ _)

theorem startYield (s : State) (i : Nat) (n : Option Byte) : s.Outside (s.startYield i n) := by
  refine withEntry fun e _ => ?_
  have h1 : s.Outside (s.modify i fun e => { e with ownership := .yielding, refreshTimer := none }) := modify s i fun _ => rfl
  dsimp only
  split
  all_goals first
    | exact h1.trans (append _ _ _)
    | exact h1.trans (trans (withdraw _ _) (append _ _ _))
    | exact h1.trans (setSlot _ _ _)

theorem handedBack (s : State) (i : Nat) (n : Byte) : s.Outside (s.handedBack i n) := by
  refine trans ?_ (postAll _ _ _)
  exact modify s i fun _ => rfl

theorem released (s : State) (i : Nat) (o : TxOutcome) : s.Outside (s.released i o) := by
  refine withEntry fun e _ => ?_
  refine trans ?_ (postAll _ _ _)
  exact modify s i fun _ => rfl

theorem withdrawQuery (s : State) (i : Nat) : s.Outside (s.withdrawQuery i) := by
  refine withEntry fun e _ => ?_
  split
  all_goals first
    | exact refl s
    | (split
       · exact withdraw s i
       · exact refl s)

theorem acceptValue (s : State) (i : Nat) (t : Telegram) (b : Bool) (rs : List (EventKind × Byte)) : s.Outside (s.acceptValue i t b rs) := by
  refine withEntry fun e _ => ?_
  refine trans (trans ?_ (withdrawQuery _ _)) (postAll _ _ _)
  exact modify s i fun _ => rfl

theorem refuseValue (s : State) (i : Nat) (t : Telegram) (rs : List (EventKind × Byte)) : s.Outside (s.refuseValue i t rs) := by
  refine withEntry fun e _ => ?_
  exact trans (trans (postAll _ _ _) (bump _ _)) (post _ _ _ _ _)

theorem adoptOwner (s : State) (i : Nat) (t : Telegram) (d : Timer) (rs : List (EventKind × Byte)) : s.Outside (s.adoptOwner i t d rs) := by
  refine withEntry fun e _ => ?_
  split
  · refine trans ?_ (refuseValue _ _ _ _)
    exact modify s i fun _ => rfl
  · exact acceptValue _ _ _ _ _

theorem takeFromOwner (s : State) (i : Nat) (t : Telegram) (a : Bool) : s.Outside (s.takeFromOwner i t a) := by
  refine withEntry fun e _ => ?_
  split
  · refine trans ?_ (refuseValue _ _ _ _)
    exact modify s i fun _ => rfl
  · split
    · exact acceptValue _ _ _ _ _
    · split
      · exact acceptValue _ _ _ _ _
      · split
        · exact acceptValue _ _ _ _ _
        · exact acceptValue _ _ _ _ _
        · refine trans ?_ (bump _ _)
          exact modify s i fun _ => rfl

theorem publishAtConsumer (s : State) (i : Nat) (t : Telegram) (v : View) : s.Outside (s.publishAtConsumer i t v) := by
  refine withEntry fun e _ => ?_
  split
  · refine trans ?_ (adoptOwner _ _ _ _ _)
    exact modify s i fun _ => rfl
  · refine trans ?_ (adoptOwner _ _ _ _ _)
    exact modify s i fun _ => rfl
  · split
    · exact takeFromOwner _ _ _ _
    · split
      · exact adoptOwner _ _ _ _ _
      · exact refl s

theorem publishAtClaimant (s : State) (i : Nat) (t : Telegram) : s.Outside (s.publishAtClaimant i t) := by
  refine withEntry fun e _ => ?_
  split
  · exact refl s
  · refine trans ?_ (adoptOwner _ _ _ _ _)
    exact trans (voidClaim s i) (modify _ _ fun _ => rfl)

theorem voidPublish (s : State) (i : Nat) : s.Outside (s.voidPublish i) := by
  refine withEntry fun e _ => ?_
  split
  all_goals first | exact refl s | exact withdraw s i | exact setSlot s i _

theorem publishAtOwner (s : State) (i : Nat) (t : Telegram) : s.Outside (s.publishAtOwner i t) := by
  refine withEntry fun e _ => ?_
  split
  · refine trans ?_ (adoptOwner _ _ _ _ _)
    exact trans (voidPublish s i) (modify _ _ fun _ => rfl)
  · exact defend s i

theorem publishAtEntry (s : State) (i : Nat) (e : Entry) (t : Telegram) : s.Outside (s.publishAtEntry i e t) := by
  unfold State.publishAtEntry
  split
  · exact publishAtConsumer _ _ _ _
  · exact publishAtClaimant _ _ _
  · exact publishAtOwner _ _ _
  · exact refl s

theorem orphanEntry (s : State) (i : Nat) (v : View) : s.Outside (s.orphanEntry i v) := by
  refine trans (trans ?_ (postEntry _ _ _ _)) (takeoverLogic _ _)
  exact modify s i fun _ => rfl

theorem followSuccessor (s : State) (i : Nat) (n : Byte) : s.Outside (s.followSuccessor i n) := by
  refine trans ?_ (postEntry _ _ _ _)
  exact modify s i fun _ => rfl

theorem yieldAtEntry (s : State) (i : Nat) (e : Entry) (t : Telegram) : s.Outside (s.yieldAtEntry i e t) := by
  unfold State.yieldAtEntry
  split
  · unfold State.yieldAtConsumer
    split
    · exact refl s
    · split
      · split
        · exact followSuccessor _ _ _
        · exact orphanEntry _ _ _
      · exact refl s
    · split
      · split
        · exact followSuccessor _ _ _
        · exact refl s
      · exact refl s
  · refine withEntry fun e _ => ?_
    split
    · exact win _ _
    · exact modify s i fun _ => rfl
  · exact refl s
  · exact refl s

theorem claimAtEntry (s : State) (i : Nat) (e : Entry) (t : Telegram) : s.Outside (s.claimAtEntry i e t) := by
  unfold State.claimAtEntry
  split
  · exact refl s
  · split
    · unfold State.claimAtConsumer
      split
      · exact startTakeover _ _
      · exact refl s
    · unfold State.claimAtClaimant
      split
      · exact loseToClaim _ _
      · exact refl s
    · unfold State.claimAtOwner
      split
      · exact startYield _ _ _
      · exact defend _ _
    · exact refl s

theorem noticeAtEntry (s : State) (n : Byte) (i : Nat) : s.Outside (s.noticeAtEntry n i) := by
  refine withEntry fun e _ => ?_
  split
  · split
    · exact orphanEntry _ _ _
    · exact refl s
  · split
    · exact modify s i fun _ => rfl
    · exact refl s
  · exact refl s
  · exact refl s

theorem noticeAtOd (s : State) (n : Byte) : s.Outside (s.noticeAtOd n) := eachEntry (fun s i => noticeAtEntry s n i) s

/-- Taking the notices that wait empties their path and is otherwise an operation of the directory. -/
theorem noticesTaken (s : State) : ({ s with paths := { s.paths with notices := [] } } : State).Outside s.noticesTaken := by
  have h : ∀ (l : List Notice) (t : State), t.Outside (l.foldl (fun s n => s.noticeAtOd n.station) t) := fun l => by
    induction l with
    | nil => exact refl
    | cons n l ih => exact fun t => trans (noticeAtOd t n.station) (ih _)
  exact h s.paths.notices _

/-- The sweep of a row gives at most a notice. -/
theorem sweepRow (s : State) (n : Nat) : ∃ l, s.sweepRow n = { s with paths := { s.paths with notices := l } } := by
  unfold State.sweepRow
  split
  · exact ⟨s.paths.notices, rfl⟩
  · split
    · exact ⟨_, rfl⟩
    · exact ⟨s.paths.notices, rfl⟩

/-- The join sweep empties the path of the notices and is otherwise an operation of the directory. -/
theorem joinSweep (s : State) : ({ s with paths := { s.paths with notices := [] } } : State).Outside s.joinSweep := by
  have h : ∀ (rows : List Nat) (t : State), ∃ l, rows.foldl State.sweepRow t = { t with paths := { t.paths with notices := l } } := fun rows => by
    induction rows with
    | nil => exact fun t => ⟨t.paths.notices, rfl⟩
    | cons n rows ih =>
      intro t
      obtain ⟨l, hl⟩ := sweepRow t n
      obtain ⟨k, hk⟩ := ih (t.sweepRow n)
      exact ⟨k, by rw [List.foldl_cons, hk, hl]⟩
  obtain ⟨l, hl⟩ := h (List.range' 1 Config.peerRows) s
  unfold State.joinSweep
  rw [hl]
  exact noticesTaken { s with paths := { s.paths with notices := l } }

theorem requestQuery (s : State) (i : Nat) : s.Outside (s.requestQuery i) := append s i queryOut

theorem serveFollowUp (s : State) (i : Nat) (f : FollowUp) : s.Outside (s.serveFollowUp i f) := by
  refine withEntry fun e _ => ?_
  split
  all_goals first | exact publishSpaced s i e _ | exact append s i _ | exact refl s

theorem claimOutcome (s : State) (i : Nat) (e : Entry) (f : FollowUp) (o : TxOutcome) : s.Outside (s.claimOutcome i e f o) := by
  unfold State.claimOutcome
  split
  · split
    · exact trans (returnToPrior _ _ _) (takeoverIfOrphaned _ _)
    · split
      · exact modify s i fun _ => rfl
      · exact trans (returnToPrior _ _ _) (takeoverLogic _ _)
  all_goals exact refl s

theorem publishSent (e : Entry) : e.publishSent.decl = e.decl := by
  unfold Entry.publishSent; dsimp only; split <;> rfl

theorem outcomeByKind (s : State) (i : Nat) (e : Entry) (x : Outbound) (f : FollowUp) (o : TxOutcome) :
    s.Outside (s.outcomeByKind i e x f o) := by
  unfold State.outcomeByKind
  split
  · split
    · exact modify s i publishSent
    · exact refl s
  · exact claimOutcome _ _ _ _ _
  · unfold State.yieldOutcome
    split
    · split
      · exact handedBack _ _ _
      · exact released _ _ _
    all_goals exact refl s
  · exact refl s

theorem outcomeAtEntry (s : State) (i : Nat) (o : TxOutcome) : s.Outside (s.outcomeAtEntry i o) := by
  refine withEntry fun e _ => ?_
  split
  · exact trans (trans (trans (setSlot s i _) (outcomeByKind _ _ _ _ _ _)) (serveFollowUp _ _ _)) (claimIfHomeOrphaned _ _)
  all_goals exact refl s

theorem atDue {s : State} {i : Nat} {timer : Entry → Timer} {k : Entry → State} (h : ∀ e, s.entry? i = some e → s.Outside (k e)) :
    s.Outside (s.atDue i timer k) := by
  refine withEntry fun e he => ?_
  split
  · exact h e he
  · exact refl s

theorem freshnessExpired (s : State) (i : Nat) : s.Outside (s.freshnessExpired i) := by
  refine atDue fun e _ => ?_
  have h1 : s.Outside (s.modify i fun e => { e with freshness := .stale, freshTimer := none }) := modify s i fun _ => rfl
  dsimp only
  split
  · exact h1
  · exact h1.trans (postEntry _ _ _ _)

theorem refreshExpired (s : State) (i : Nat) : s.Outside (s.refreshExpired i) := by
  refine atDue fun e _ => ?_
  split
  · exact refl s
  · split
    · exact modify s i fun _ => rfl
    · split
      · refine trans (bump s .shed) ?_
        exact modify _ i fun _ => rfl
      · refine trans ?_ (publishSpaced _ _ _ _)
        exact modify s i fun _ => rfl

theorem spacingExpired (s : State) (i : Nat) : s.Outside (s.spacingExpired i) := by
  refine atDue fun e _ => ?_
  have h1 : s.Outside (s.modify i fun e => { e with spacingTimer := none }) := modify s i fun _ => rfl
  dsimp only
  split
  · exact h1.trans (append _ _ _)
  all_goals exact h1

theorem windowExpired (s : State) (i : Nat) : s.Outside (s.windowExpired i) := by
  refine atDue fun e _ => ?_
  split
  · exact win _ _
  all_goals exact refl s

theorem takeoverExpired (s : State) (i : Nat) : s.Outside (s.takeoverExpired i) := by
  refine atDue fun e _ => ?_
  split
  · split
    all_goals first
      | exact refl s
      | (split
         · exact startTakeover _ _
         · exact startClaim _ _)
  · exact refl s

theorem joinEntry (s : State) (i : Nat) : s.Outside (s.joinEntry i) := by
  refine withEntry fun e _ => ?_
  split
  all_goals first
    | exact refl s
    | (split
       · exact startClaim _ _
       · first
         | exact refl s
         | (split
            · exact startTakeover _ _
            · exact refl s))

theorem joinQuery (s : State) (i : Nat) : s.Outside (s.joinQuery i) := by
  refine withEntry fun e _ => ?_
  split
  · exact requestQuery _ _
  · exact refl s

theorem joinActions (s : State) : s.Outside s.joinActions := trans (eachEntry joinEntry s) (eachEntry joinQuery _)

theorem leaveEntry (s : State) (i : Nat) : s.Outside (s.leaveEntry i) := by
  refine withEntry fun e _ => ?_
  split
  · exact startYield _ _ _
  · exact cancelClaim _ _
  · exact modify s i fun _ => rfl
  · exact refl s

theorem lineRestartEntry (s : State) (i : Nat) : s.Outside (s.lineRestartEntry i) := by
  refine withEntry fun e _ => ?_
  refine trans ?_ (postAll _ _ _)
  exact modify s i fun _ => rfl

theorem loseEntry (s : State) (c : LossCause) (i : Nat) : s.Outside (s.loseEntry c i) := by
  refine withEntry fun e _ => ?_
  split
  · refine trans ?_ (postAll _ _ _)
    exact modify s i fun _ => rfl
  · refine trans ?_ (postAll _ _ _)
    exact modify s i fun _ => rfl
  · refine trans ?_ (returnToPrior _ _ _)
    exact modify s i fun _ => rfl
  · exact modify s i fun _ => rfl

theorem loseAll (s : State) (c : LossCause) : s.Outside (s.loseAll c) := eachEntry (fun s i => loseEntry s c i) s

end Sys2Proof.Machine.State.Outside
end

