-- ==== Sys2Proof/Laws/Entries.lean ====
section
/-! SUPPORT. Reading an entry after a change, and the shared operations at one entry: what they do there and that they leave every other entry alone. -/

namespace Sys2Proof.Machine

theorem State.entry?_succ (s : State) (k : Nat) : s.entry? (k + 1) = s.od.entries[k]? := rfl

theorem State.entry?_zero (s : State) : s.entry? 0 = none := rfl

/-- The entry changed. -/
theorem State.entry?_modify_same (s : State) (i : Nat) (f : Entry → Entry) : (s.modify i f).entry? i = (s.entry? i).map f := by
  cases i with
  | zero => rfl
  | succ k =>
    show (s.od.entries.modify k f)[k]? = _
    rw [List.getElem?_modify]
    simp [State.entry?]

/-- Every other entry. -/
theorem State.entry?_modify_other (s : State) {i j : Nat} (h : j ≠ i) (f : Entry → Entry) : (s.modify i f).entry? j = s.entry? j := by
  cases i with
  | zero => rfl
  | succ k =>
    cases j with
    | zero => rfl
    | succ l =>
      show (s.od.entries.modify k f)[l]? = s.od.entries[l]?
      rw [List.getElem?_modify]
      have : k ≠ l := by omega
      simp [this]

/-- Acting on an entry that is there. -/
theorem State.withEntry_some {s : State} {i : Nat} {e : Entry} (h : s.entry? i = some e) (k : Entry → State) : s.withEntry i k = k e := by
  unfold State.withEntry; rw [h]

/-- Acting on an entry that is not there. -/
theorem State.withEntry_none {s : State} {i : Nat} (h : s.entry? i = none) (k : Entry → State) : s.withEntry i k = s := by
  unfold State.withEntry; rw [h]

theorem State.entry?_post (s : State) (k : EventKind) (id : BitVec 12) (tag : Byte) (v : Option Byte) (i : Nat) :
    (s.post k id tag v).entry? i = s.entry? i := by
  obtain ⟨q, l, h⟩ := s.post_eq k id tag v
  rw [h]
  cases i <;> rfl

theorem State.entry?_postEntry (s : State) (j : Nat) (k : EventKind) (tag : Byte) (i : Nat) :
    (s.postEntry j k tag).entry? i = s.entry? i := by
  unfold State.postEntry State.withEntry
  split
  · rfl
  · exact s.entry?_post _ _ _ _ i

theorem State.entry?_postAll (j i : Nat) : ∀ (rs : List (EventKind × Byte)) (s : State), (s.postAll j rs).entry? i = s.entry? i
  | [], _ => rfl
  | r :: rs, s => by
    show ((s.postEntry j r.1 r.2).postAll j rs).entry? i = _
    rw [State.entry?_postAll j i rs, State.entry?_postEntry]

theorem State.entry?_bump (s : State) (c : Counter) (i : Nat) : (s.bump c).entry? i = s.entry? i := by
  obtain ⟨q, l, n, a, h⟩ := s.bump_eq c
  rw [h]
  cases i <;> rfl

theorem State.entry?_judgeBacklog (s : State) (i : Nat) : s.judgeBacklog.entry? i = s.entry? i := by
  unfold State.judgeBacklog
  split
  · rfl
  · unfold State.postStation; rw [State.entry?_post]; cases i <;> rfl
  · unfold State.postStation; rw [State.entry?_post]; cases i <;> rfl

theorem State.entry?_joinRoutine (s : State) (r : Ref) (i : Nat) : (s.joinRoutine r).entry? i = s.entry? i := by
  unfold State.joinRoutine
  rw [State.entry?_judgeBacklog]
  cases i <;> rfl

/-- An append sets the slot of its entry to QUEUED or OWED (R133). -/
theorem State.entry?_append_same (s : State) (i : Nat) (o : Outbound) :
    ∃ slot, (slot = .queued o ∨ slot = .owed o) ∧ (s.append i o).entry? i = (s.entry? i).map fun e => { e with slot := slot } := by
  unfold State.append
  split
  · split
    · exact ⟨_, .inl rfl, by rw [← State.entry?_modify_same]; cases i <;> rfl⟩
    · exact ⟨_, .inr rfl, by rw [← State.entry?_modify_same]; cases i <;> rfl⟩
  · split
    · exact ⟨_, .inl rfl, by rw [State.entry?_joinRoutine, ← State.entry?_modify_same]; rfl⟩
    · exact ⟨_, .inr rfl, by rw [← State.entry?_modify_same]; cases i <;> rfl⟩

/-- An append leaves every other entry alone. -/
theorem State.entry?_append_other (s : State) {i j : Nat} (h : j ≠ i) (o : Outbound) : (s.append i o).entry? j = s.entry? j := by
  unfold State.append
  split
  · split
    · have := s.entry?_modify_other h fun e => { e with slot := .queued o }
      rw [← this]; cases j <;> rfl
    · have := s.entry?_modify_other h fun e => { e with slot := .owed o }
      rw [← this]; cases j <;> rfl
  · split
    · rw [State.entry?_joinRoutine]; exact s.entry?_modify_other h _
    · have := s.entry?_modify_other h fun e => { e with slot := .owed o }
      rw [← this]; cases j <;> rfl

/-! ## Replacing an entry -/

theorem State.entry?_lt {s : State} {i : Nat} {e : Entry} (h : s.entry? i = some e) :
    ∃ k, i = k + 1 ∧ k < s.od.entries.length ∧ s.od.entries[k]? = some e := by
  cases i with
  | zero => exact absurd h (by simp [State.entry?])
  | succ k => exact ⟨k, rfl, (List.getElem?_eq_some_iff.mp h).1, h⟩

/-- Changing the entry of an index is replacing it by what it is changed to. -/
theorem State.modify_eq_put {s : State} {i : Nat} {e : Entry} (h : s.entry? i = some e) (f : Entry → Entry) : s.modify i f = s.put i (f e) := by
  obtain ⟨k, rfl, _, hk⟩ := s.entry?_lt h
  unfold State.modify State.put
  have : s.od.entries.modify k f = s.od.entries.set k (f e) := by
    apply List.ext_getElem?
    intro j
    rw [List.getElem?_modify, List.getElem?_set]
    by_cases hj : k = j
    · subst hj
      obtain ⟨hl, he⟩ := List.getElem?_eq_some_iff.mp hk
      simp [hl, he]
    · simp [hj]
  simp only [Nat.add_sub_cancel, this]

theorem State.entry?_put_same {s : State} {i : Nat} {e : Entry} (h : s.entry? i = some e) (e' : Entry) : (s.put i e').entry? i = some e' := by
  obtain ⟨k, rfl, hk, _⟩ := s.entry?_lt h
  show (s.od.entries.set k e')[k]? = some e'
  simp [hk]

theorem State.entry?_put_other (s : State) {i j : Nat} (hi : 1 ≤ i) (h : j ≠ i) (e' : Entry) : (s.put i e').entry? j = s.entry? j := by
  cases j with
  | zero => rfl
  | succ j =>
    show (s.od.entries.set (i - 1) e')[j]? = s.od.entries[j]?
    rw [List.getElem?_set_ne (by omega)]

theorem State.put_put (s : State) (i : Nat) (e e' : Entry) : (s.put i e).put i e' = s.put i e' := by
  unfold State.put
  simp only [List.set_set]

theorem State.setSlot_eq_put {s : State} {i : Nat} {e : Entry} (h : s.entry? i = some e) (slot : Slot) :
    s.setSlot i slot = s.put i { e with slot := slot } := State.modify_eq_put h _

/-- Replacing an entry by itself. -/
theorem State.put_self {s : State} {i : Nat} {e : Entry} (h : s.entry? i = some e) : s.put i e = s := by
  obtain ⟨k, rfl, hk, he⟩ := s.entry?_lt h
  unfold State.put
  have : s.od.entries.set k e = s.od.entries := by
    apply List.ext_getElem?
    intro j
    rw [List.getElem?_set]
    by_cases hj : k = j
    · subst hj
      simp [hk, (List.getElem?_eq_some_iff.mp he).2]
    · simp [hj]
  simp only [Nat.add_sub_cancel, this]

/-! ## Withdrawing, and the records of an entry -/

/-- A promotion leaves an entry whose slot is NONE as it is (R135). -/
theorem State.entry?_promote {s : State} {i j : Nat} {e : Entry} (h : s.entry? i = some e) (hn : e.slot = .none) :
    (s.modify j Entry.promoted).entry? i = some e := by
  by_cases hj : i = j
  · subst hj
    rw [State.entry?_modify_same, h]
    simp [Entry.promoted, hn]
  · rw [State.entry?_modify_other s hj, h]

/-- So does the offer of an URGENT place. -/
theorem State.entry?_offerUrgent {s : State} {i : Nat} {e : Entry} (h : s.entry? i = some e) (hn : e.slot = .none) :
    s.offerUrgent.entry? i = some e := by
  unfold State.offerUrgent
  split
  · exact h
  · split
    · exact State.entry?_promote (by rw [← h]; cases i <;> rfl) hn
    · exact h

/-- So does the offer of a ROUTINE place. -/
theorem State.entry?_offerRoutine {s : State} {i : Nat} {e : Entry} (h : s.entry? i = some e) (hn : e.slot = .none) :
    s.offerRoutine.entry? i = some e := by
  unfold State.offerRoutine
  split
  · split
    · rw [State.entry?_joinRoutine, ← h]; cases i <;> rfl
    all_goals
      split
      · exact h
      · rw [State.entry?_joinRoutine]; exact State.entry?_promote (by rw [← h]; cases i <;> rfl) hn
  · exact h

/-- A withdrawal leaves its entry with slot NONE, or as it is while its telegram is in flight (R134). -/
theorem State.entry?_withdraw_same {s : State} {i : Nat} {e : Entry} (h : s.entry? i = some e) :
    (s.withdraw i).entry? i = some { e with slot := match e.slot with
      | .inFlight o f => .inFlight o f
      | .none | .waiting _ | .owed _ | .queued _ => .none } := by
  unfold State.withdraw
  rw [State.withEntry_some h]
  have h1 := State.setSlot_eq_put h Slot.none
  have h2 := State.entry?_put_same h { e with slot := .none }
  rw [← h1] at h2
  split
  · rw [h]; simp_all
    cases e; simp_all
  · rw [h]; cases e; simp_all
  · rename_i o ho; rw [ho]; exact h2
  · rename_i o ho; rw [ho]; simp only; rw [← h2]; cases i <;> rfl
  · rename_i o ho; rw [ho]
    split
    · exact State.entry?_offerUrgent (by rw [← h2]; cases i <;> rfl) rfl
    · unfold State.freedRoutine
      apply State.entry?_offerRoutine _ rfl
      rw [State.entry?_judgeBacklog, ← h2]; cases i <;> rfl

/-- The records of an entry carry its object id and the version it holds (R28). -/
theorem State.postAll_records {i : Nat} {e : Entry} : ∀ (rs : List (EventKind × Byte)) (s : State), s.entry? i = some e →
    s.postAll i rs = rs.foldl (fun v r => v.post r.1 e.decl.objectId r.2 e.version) s
  | [], _, _ => rfl
  | r :: rs, s, h => by
    show (s.postEntry i r.1 r.2).postAll i rs = _
    have : s.postEntry i r.1 r.2 = s.post r.1 e.decl.objectId r.2 e.version := by
      unfold State.postEntry; rw [State.withEntry_some h]
    rw [this, State.postAll_records rs _ (by rw [State.entry?_post]; exact h)]
    rfl

end Sys2Proof.Machine
end

