-- ==== Sys2Proof/Laws/Exec.lean ====
section
/-! SUPPORT. Taking a command: with RST_N high it has its effect, with RST_N low none; a step takes the front of the queue. -/

namespace Sys2Proof.Machine

theorem State.taken_high {s : State} (h : s.rstLow = false) (f : State → State) : s.taken f = .next (f s) := by
  unfold State.taken; rw [h]; rfl

theorem State.taken_low {s : State} (h : s.rstLow = true) (f : State → State) : s.taken f = .next s := by
  unfold State.taken; rw [h]; rfl

/-- An effect that changes nothing in this state: the command leaves it as it is, with RST_N at either level. -/
theorem State.taken_same {s : State} {f : State → State} (h : f s = s) : s.taken f = .next s := by
  unfold State.taken; rw [h, ite_self]

/-- An expiry at an entry changes nothing where the timer is not due, and where its effect at a due timer is none. -/
theorem State.atDue_same {s : State} {i : Nat} {timer : Entry → Timer} {k : Entry → State}
    (h : ∀ e, s.entry? i = some e → timer e ≠ some 0 ∨ k e = s) : s.atDue i timer k = s := by
  unfold State.atDue
  cases hi : s.entry? i with
  | none => exact State.withEntry_none hi _
  | some e =>
    rw [State.withEntry_some hi]
    rcases h e hi with ht | hk
    · exact if_neg (by simpa only [Timer.due, decide_eq_true_eq] using ht)
    · rw [hk, ite_self]

/-- A request that serves: its meaning runs on the fields of the working request. -/
theorem State.withRequest_serves {s : State} {c : RequestCode} {r : Request} (h : s.serves c r) (k : Request → State) :
    s.withRequest c k = k r := by
  obtain ⟨_, hc, area, hp, ha⟩ := h
  unfold State.withRequest
  rw [hp]
  dsimp only
  rw [ha, if_pos hc]

/-- A request in a station state that accepts it. -/
theorem State.accepting_serves {s : State} {c : RequestCode} {r : Request} (h : s.serves c r) (ha : c.acceptedIn s.sc.state = true)
    (k : Request → State) : s.accepting c k = k r := by
  unfold State.accepting
  rw [State.withRequest_serves h, if_pos ha]

/-- A request at the entry its object id names. -/
theorem State.atObject_carries {s : State} {r : Request} {i : Nat} {e : Entry} (h : s.carries r.objectId.toNat i e)
    (k : Nat → Entry → State) : s.atObject r k = k i e := by
  unfold State.atObject
  rw [h.1]
  dsimp only
  rw [h.2]

/-- A routed telegram of the kind an event names is taken off its path and reaches its entry. -/
theorem State.takeRouted_routed {s : State} {kind : TelegramKind} {t : Telegram} {rest : List Telegram} {i : Nat} {e : Entry}
    (h : s.routed kind t rest i e) (k : State → Nat → Entry → Telegram → State) :
    s.takeRouted kind k = k (s.afterRouted rest) i e t := by
  obtain ⟨_, hp, hk, hf, he⟩ := h
  unfold State.takeRouted
  rw [hp]
  dsimp only
  rw [if_pos hk]
  show (match (s.afterRouted rest).find t.objectId.toNat with
    | none => s.afterRouted rest
    | some i => (s.afterRouted rest).withEntry i fun e => k (s.afterRouted rest) i e t) = _
  have hf' : (s.afterRouted rest).find t.objectId.toNat = some i := hf
  rw [hf']
  have he' : (s.afterRouted rest).entry? i = some e := by rw [← he]; cases i <;> rfl
  exact State.withEntry_some he' _

end Sys2Proof.Machine
end

