-- ==== Sys2Proof/Laws/Framing.lean ====
section
/-! SUPPORT. The framing of a reception: a byte sent is the byte read, bytes in a row, the start sequence, the end of telegram (R110, R120);
the CRC-16 as its register takes it, bit by bit (R121). -/

namespace Sys2Proof.Machine

/-- Eight data bits, least significant first. -/
theorem Framing.dataBits (b : Byte) (bytes : List Byte) :
    [b.getLsbD 0, b.getLsbD 1, b.getLsbD 2, b.getLsbD 3, b.getLsbD 4, b.getLsbD 5, b.getLsbD 6, b.getLsbD 7].foldl Framing.bit (.data 0 0#8 bytes)
      = .data 8 b bytes := by
  simp only [List.foldl, Framing.bit, Nat.zero_lt_succ, if_true, Nat.reduceLT, Nat.reduceAdd]
  congr 1
  revert b
  decide

/-- One byte with its start and stop bit. -/
theorem Framing.byte (b : Byte) (bytes : List Byte) (h : bytes.length < 263) : (byteLevels b).foldl Framing.bit (.due 0 bytes) = .due 0 (bytes ++ [b]) := by
  have e : byteLevels b = false :: ([b.getLsbD 0, b.getLsbD 1, b.getLsbD 2, b.getLsbD 3, b.getLsbD 4, b.getLsbD 5, b.getLsbD 6, b.getLsbD 7] ++ [true]) := rfl
  rw [e, List.foldl_cons, List.foldl_append]
  have : Framing.bit (.due 0 bytes) false = .data 0 0#8 bytes := by simp only [Framing.bit, if_true]; rw [if_pos h]
  rw [this, Framing.dataBits]; rfl

/-- Bytes sent one after another. -/
theorem Framing.bytes : ∀ (bs bytes : List Byte), bytes.length + bs.length ≤ 263 → (bytesLevels bs).foldl Framing.bit (.due 0 bytes) = .due 0 (bytes ++ bs)
  | [], bytes, _ => by simp [bytesLevels]
  | b :: bs, bytes, h => by
    simp only [List.length_cons] at h
    rw [bytesLevels, List.foldl_append, Framing.byte _ _ (by omega), Framing.bytes bs _ (by simp; omega)]
    simp

/-- A reception that begins with the start sequence is framed from its ninth level on. -/
theorem Framing.afterStart (l : List Bool) : frame (startSequence ++ l) = some (l.foldl Framing.bit (.due 0 [])) := by
  unfold frame
  rw [if_pos (by simp [List.isPrefixOf_iff_prefix])]
  rfl

/-- Fewer than 12 bit times at 1 where a start bit is due. -/
theorem Framing.ones (k n : Nat) (bytes : List Byte) (h : n + k < 12) : (List.replicate k true).foldl Framing.bit (.due n bytes) = .due (n + k) bytes := by
  induction k generalizing n with
  | zero => rfl
  | succ k ih =>
    rw [List.replicate_succ, List.foldl_cons]
    have : Framing.bit (.due n bytes) true = .due (n + 1) bytes := by
      simp only [Framing.bit]; rw [if_neg]; show ¬ (n + 1 = 12); omega
    rw [this, ih (n + 1) (by omega)]; congr 1; omega

/-- Twelve bit times at 1 end the telegram. -/
theorem Framing.ended12 (bytes : List Byte) : (List.replicate 12 true).foldl Framing.bit (.due 0 bytes) = .ended bytes := by
  have : List.replicate 12 true = List.replicate 11 true ++ [true] := rfl
  rw [this, List.foldl_append, Framing.ones 11 0 _ (by omega)]; rfl

/-- The levels of bytes in a row are those of each byte in turn. -/
theorem bytesLevels_eq_flatMap (bytes : List Byte) : bytesLevels bytes = bytes.flatMap byteLevels := by
  induction bytes with
  | nil => rfl
  | cons b bs ih => rw [bytesLevels, ih, List.flatMap_cons]

/-! ## The CRC-16, bit by bit -/

/-- One bit enters the register: it is fed back against the top bit. -/
def crcSerial (r : BitVec 16) (bit : Bool) : BitVec 16 := if r.getLsbD 15 = bit then r <<< 1 else (r <<< 1) ^^^ 0x1021#16

/-- What is added to the register below its top bit only moves up. -/
theorem crcBit_xor (r x : BitVec 16) (h : x.getLsbD 15 = false) : crcBit (r ^^^ x) = crcBit r ^^^ (x <<< 1) := by
  have hm : (r ^^^ x).msb = r.msb := by rw [BitVec.msb_eq_getLsbD_last, BitVec.getLsbD_xor, h, Bool.xor_false, BitVec.msb_eq_getLsbD_last]
  unfold crcBit
  rw [hm, BitVec.shiftLeft_xor_distrib]
  split
  · rw [BitVec.xor_assoc, BitVec.xor_assoc, BitVec.xor_comm (x <<< 1)]
  · rfl

/-- A bit added at the top of the register enters it. -/
theorem crcBit_top (r : BitVec 16) (bit : Bool) : crcBit (r ^^^ (BitVec.ofBool bit ++ 0#15)) = crcSerial r bit := by
  have hs : (BitVec.ofBool bit ++ 0#15 : BitVec 16) <<< 1 = 0#16 := by cases bit <;> decide
  have hm : (BitVec.ofBool bit ++ 0#15 : BitVec 16).getLsbD 15 = bit := by cases bit <;> decide
  unfold crcBit crcSerial
  rw [BitVec.shiftLeft_xor_distrib, hs, BitVec.xor_zero, BitVec.msb_eq_getLsbD_last, BitVec.getLsbD_xor, hm]
  cases r.getLsbD 15 <;> cases bit <;> rfl

/-- With a byte added at its top, the register takes the byte's top bit, and the rest of the byte moves up. -/
theorem crcBit_byte (r : BitVec 16) (c : Byte) : crcBit (r ^^^ (c ++ 0#8)) = crcSerial r (c.getLsbD 7) ^^^ ((c <<< 1) ++ 0#8) := by
  have hc : ∀ c : Byte, (c ++ 0#8 : BitVec 16) = (BitVec.ofBool (c.getLsbD 7) ++ 0#15) ^^^ ((c &&& 0x7F#8) ++ 0#8) := by decide +kernel
  have ht : ∀ c : Byte, ((c &&& 0x7F#8) ++ 0#8 : BitVec 16).getLsbD 15 = false := by decide +kernel
  have hs : ∀ c : Byte, ((c &&& 0x7F#8) ++ 0#8 : BitVec 16) <<< 1 = (c <<< 1) ++ 0#8 := by decide +kernel
  rw [hc, ← BitVec.xor_assoc, crcBit_xor _ _ (ht c), crcBit_top, hs]

/-- The eight bits of a byte enter one after another, most significant first. -/
theorem crcByte_serial (r : BitVec 16) (b : Byte) :
    crcByte r b = [7, 6, 5, 4, 3, 2, 1, 0].foldl (fun r k => crcSerial r (b.getLsbD k)) r := by
  have h0 : ∀ b : Byte, ((b <<< 1 <<< 1 <<< 1 <<< 1 <<< 1 <<< 1 <<< 1 <<< 1) ++ 0#8 : BitVec 16) = 0#16 := by decide +kernel
  have hb : ∀ b : Byte, (b <<< 1).getLsbD 7 = b.getLsbD 6 ∧ (b <<< 1 <<< 1).getLsbD 7 = b.getLsbD 5
      ∧ (b <<< 1 <<< 1 <<< 1).getLsbD 7 = b.getLsbD 4 ∧ (b <<< 1 <<< 1 <<< 1 <<< 1).getLsbD 7 = b.getLsbD 3
      ∧ (b <<< 1 <<< 1 <<< 1 <<< 1 <<< 1).getLsbD 7 = b.getLsbD 2 ∧ (b <<< 1 <<< 1 <<< 1 <<< 1 <<< 1 <<< 1).getLsbD 7 = b.getLsbD 1
      ∧ (b <<< 1 <<< 1 <<< 1 <<< 1 <<< 1 <<< 1 <<< 1).getLsbD 7 = b.getLsbD 0 := by decide +kernel
  obtain ⟨h6, h5, h4, h3, h2, h1, hl⟩ := hb b
  simp only [crcByte, crcBit_byte, List.foldl]
  rw [h0, BitVec.xor_zero, h6, h5, h4, h3, h2, h1, hl]

/-- The CRC-16 of bytes is the register after all their bits. -/
theorem crc16_serial (bytes : List Byte) :
    crc16 bytes = bytes.foldl (fun r b => [7, 6, 5, 4, 3, 2, 1, 0].foldl (fun r k => crcSerial r (b.getLsbD k)) r) 0xFFFF#16 := by
  unfold crc16
  exact congrArg (fun f => bytes.foldl f 0xFFFF#16) (funext fun r => funext fun b => crcByte_serial r b)

end Sys2Proof.Machine
end

