-- ==== Sys2Proof/Laws/Memory.lean ====
section
/-! SUPPORT. Buffers: reading back what was written, and the canonical form kept by every write. -/

namespace Sys2Proof.Machine

theorem Memory.read_nil (k : Nat) : Memory.read [] k = 0#8 := rfl

theorem Memory.wfFrom_mono {low low' : Nat} (h : low' ≤ low) :
    ∀ m : Memory, Memory.wfFrom low m = true → Memory.wfFrom low' m = true
  | [], _ => rfl
  | (a, b) :: m, hm => by
    simp only [Memory.wfFrom, Bool.and_eq_true, decide_eq_true_eq] at hm ⊢
    exact ⟨⟨Nat.le_trans h hm.1.1, hm.1.2⟩, hm.2⟩

/-- An offset below every listed one reads 0. -/
theorem Memory.read_below {low k : Nat} (h : k < low) :
    ∀ m : Memory, Memory.wfFrom low m = true → m.read k = 0#8
  | [], _ => rfl
  | (a, b) :: m, hm => by
    simp only [Memory.wfFrom, Bool.and_eq_true, decide_eq_true_eq] at hm
    have ha : a ≠ k := by omega
    simp only [Memory.read, ha, if_false]
    exact Memory.read_below (by omega) m hm.2

theorem Memory.wfFrom_write {low k : Nat} (v : Byte) (hk : low ≤ k) :
    ∀ m : Memory, Memory.wfFrom low m = true → Memory.wfFrom low (m.write k v) = true
  | [], _ => by
    unfold Memory.write
    split
    · rfl
    · rename_i hv
      simp [Memory.wfFrom, hk, hv]
  | (a, b) :: m, hm => by
    have hm' := hm
    simp only [Memory.wfFrom, Bool.and_eq_true, decide_eq_true_eq] at hm
    unfold Memory.write
    split
    · rename_i hlt
      split
      · exact hm'
      · rename_i hv
        simp only [Memory.wfFrom, Bool.and_eq_true, decide_eq_true_eq]
        exact ⟨⟨hk, hv⟩, ⟨by omega, hm.1.2⟩, hm.2⟩
    · split
      · rename_i heq
        split
        · exact Memory.wfFrom_mono (by omega) m hm.2
        · rename_i hv
          simp only [Memory.wfFrom, Bool.and_eq_true, decide_eq_true_eq]
          exact ⟨⟨hk, hv⟩, heq ▸ hm.2⟩
      · rename_i hlt hne
        simp only [Memory.wfFrom, Bool.and_eq_true, decide_eq_true_eq]
        exact ⟨hm.1, Memory.wfFrom_write v (by omega) m hm.2⟩

/-- Every write keeps the canonical form. -/
theorem Memory.wf_write (m : Memory) (k : Nat) (v : Byte) (h : m.wf = true) : (m.write k v).wf = true :=
  Memory.wfFrom_write v (Nat.zero_le k) m h

theorem Memory.wf_writeAll : ∀ (bs : List Byte) (m : Memory) (k : Nat), m.wf = true → (m.writeAll k bs).wf = true
  | [], _, _, h => h
  | _ :: bs, m, k, h => Memory.wf_writeAll bs _ (k + 1) (m.wf_write k _ h)

theorem Memory.read_write_from {low k : Nat} (v : Byte) (hk : low ≤ k) (j : Nat) :
    ∀ m : Memory, Memory.wfFrom low m = true → (m.write k v).read j = if j = k then v else m.read j
  | [], _ => by
    unfold Memory.write
    split
    · rename_i hv; subst hv; split <;> rfl
    · by_cases hj : j = k
      · subst hj; simp [Memory.read]
      · simp [Memory.read, hj, Ne.symm hj]
  | (a, b) :: m, hm => by
    have hm' := hm
    simp only [Memory.wfFrom, Bool.and_eq_true, decide_eq_true_eq] at hm
    unfold Memory.write
    split
    · rename_i hlt
      split
      · rename_i hv
        by_cases hj : j = k
        · subst hj
          rw [if_pos rfl, hv]
          refine Memory.read_below (low := a) hlt _ ?_
          simp only [Memory.wfFrom, Bool.and_eq_true, decide_eq_true_eq]
          exact ⟨⟨Nat.le_refl a, hm.1.2⟩, hm.2⟩
        · rw [if_neg hj]
      · by_cases hj : j = k
        · subst hj; simp [Memory.read]
        · simp [Memory.read, hj, Ne.symm hj]
    · split
      · rename_i heq
        subst heq
        split
        · rename_i hv
          by_cases hj : j = k
          · subst hj
            rw [if_pos rfl, hv]
            exact Memory.read_below (low := j + 1) (by omega) _ hm.2
          · rw [if_neg hj]; simp [Memory.read, Ne.symm hj]
        · by_cases hj : j = k
          · subst hj; simp [Memory.read]
          · simp [Memory.read, hj, Ne.symm hj]
      · rename_i hlt hne
        by_cases haj : a = j
        · subst haj
          have : a ≠ k := by omega
          simp [Memory.read, this]
        · simp only [Memory.read, haj, if_false]
          exact Memory.read_write_from v (by omega) j m hm.2

/-- A read after a write gives the byte written at its offset and what stood before at every other. -/
theorem Memory.read_write (m : Memory) (h : m.wf = true) (k : Nat) (v : Byte) (j : Nat) :
    (m.write k v).read j = if j = k then v else m.read j :=
  Memory.read_write_from v (Nat.zero_le k) j m h

theorem Memory.within_write {n k : Nat} (v : Byte) (hk : k < n) :
    ∀ m : Memory, m.within n = true → (m.write k v).within n = true
  | [], _ => by
    unfold Memory.write
    split
    · rfl
    · simp [Memory.within, hk]
  | (a, b) :: m, hm => by
    have hm' := hm
    simp only [Memory.within, List.all_cons, Bool.and_eq_true, decide_eq_true_eq] at hm
    unfold Memory.write
    split
    · split
      · exact hm'
      · simp only [Memory.within, List.all_cons, Bool.and_eq_true, decide_eq_true_eq]
        exact ⟨hk, hm⟩
    · split
      · split
        · exact hm.2
        · simp only [Memory.within, List.all_cons, Bool.and_eq_true, decide_eq_true_eq]
          exact ⟨hk, hm.2⟩
      · simp only [Memory.within, List.all_cons, Bool.and_eq_true, decide_eq_true_eq]
        exact ⟨hm.1, Memory.within_write v hk m hm.2⟩

theorem Memory.within_writeAll {n : Nat} : ∀ (bs : List Byte) (m : Memory) (k : Nat), k + bs.length ≤ n → m.within n = true →
    (m.writeAll k bs).within n = true
  | [], _, _, _, h => h
  | _ :: bs, m, k, hk, h => by
    simp only [List.length_cons] at hk
    exact Memory.within_writeAll bs _ (k + 1) (by omega) (m.within_write _ (by omega) h)

/-- Bytes written at rising offsets read back, and every offset outside them reads as before. -/
theorem Memory.read_writeAll : ∀ (bs : List Byte) (m : Memory) (k j : Nat), m.wf = true →
    (m.writeAll k bs).read j = if k ≤ j ∧ j < k + bs.length then bs.getD (j - k) 0#8 else m.read j
  | [], m, k, j, _ => by
    have : ¬ (k ≤ j ∧ j < k + ([] : List Byte).length) := by simp
    rw [if_neg this]; rfl
  | b :: bs, m, k, j, h => by
    show ((m.write k b).writeAll (k + 1) bs).read j = _
    rw [Memory.read_writeAll bs (m.write k b) (k + 1) j (m.wf_write k b h), m.read_write h k b j]
    by_cases hj : j = k
    · subst hj
      have h1 : ¬ (j + 1 ≤ j ∧ j < j + 1 + bs.length) := by omega
      have h2 : j ≤ j ∧ j < j + (b :: bs).length := by simp
      rw [if_neg h1, if_pos rfl, if_pos h2, Nat.sub_self]; rfl
    · by_cases hr : k + 1 ≤ j ∧ j < k + 1 + bs.length
      · have h2 : k ≤ j ∧ j < k + (b :: bs).length := by simp only [List.length_cons]; omega
        rw [if_pos hr, if_pos h2]
        have : j - k = (j - (k + 1)) + 1 := by omega
        rw [this]; rfl
      · have h2 : ¬ (k ≤ j ∧ j < k + (b :: bs).length) := by simp only [List.length_cons]; omega
        rw [if_neg hr, if_neg hj, if_neg h2]

end Sys2Proof.Machine
end

