-- ==== Sys2Proof/Laws/State.lean ====
section
/-! SUPPORT. One lemma per field for each named update of the state, true by rfl, so that no proof unfolds a record update. -/

namespace Sys2Proof.Machine

@[simp] theorem State.complete_rstLow (s : State) (r : Response) : (s.complete r).rstLow = s.rstLow := rfl
@[simp] theorem State.complete_od (s : State) (r : Response) : (s.complete r).od = s.od := rfl
@[simp] theorem State.complete_ts (s : State) (r : Response) : (s.complete r).ts = s.ts := rfl
@[simp] theorem State.complete_lc (s : State) (r : Response) : (s.complete r).lc = s.lc := rfl
@[simp] theorem State.complete_tf (s : State) (r : Response) : (s.complete r).tf = s.tf := rfl
@[simp] theorem State.complete_pm (s : State) (r : Response) : (s.complete r).pm = s.pm := rfl
@[simp] theorem State.complete_sc (s : State) (r : Response) : (s.complete r).sc = s.sc := rfl
@[simp] theorem State.complete_il (s : State) (r : Response) : (s.complete r).il = s.il := rfl
@[simp] theorem State.complete_lp (s : State) (r : Response) : (s.complete r).lp = { s.lp with port := .done r } := rfl
@[simp] theorem State.complete_eu (s : State) (r : Response) : (s.complete r).eu = s.eu := rfl
@[simp] theorem State.complete_paths (s : State) (r : Response) : (s.complete r).paths = s.paths := rfl
@[simp] theorem State.complete_draws (s : State) (r : Response) : (s.complete r).draws = s.draws := rfl
@[simp] theorem State.complete_pending (s : State) (r : Response) : (s.complete r).pending = s.pending := rfl

@[simp] theorem State.responded_rstLow (s : State) (r : Response) : (s.responded r).rstLow = s.rstLow := rfl
@[simp] theorem State.responded_od (s : State) (r : Response) : (s.responded r).od = s.od := rfl
@[simp] theorem State.responded_ts (s : State) (r : Response) : (s.responded r).ts = s.ts := rfl
@[simp] theorem State.responded_lc (s : State) (r : Response) : (s.responded r).lc = s.lc := rfl
@[simp] theorem State.responded_tf (s : State) (r : Response) : (s.responded r).tf = s.tf := rfl
@[simp] theorem State.responded_pm (s : State) (r : Response) : (s.responded r).pm = s.pm := rfl
@[simp] theorem State.responded_sc (s : State) (r : Response) : (s.responded r).sc = s.sc := rfl
@[simp] theorem State.responded_il (s : State) (r : Response) : (s.responded r).il = s.il := rfl
@[simp] theorem State.responded_lp (s : State) (r : Response) : (s.responded r).lp = { s.lp with port := .done r } := rfl
@[simp] theorem State.responded_eu (s : State) (r : Response) : (s.responded r).eu = s.eu := rfl
@[simp] theorem State.responded_paths (s : State) (r : Response) : (s.responded r).paths = s.paths := rfl
@[simp] theorem State.responded_draws (s : State) (r : Response) : (s.responded r).draws = s.draws := rfl
@[simp] theorem State.responded_pending (s : State) (r : Response) : (s.responded r).pending = s.pending := rfl

@[simp] theorem State.answer_rstLow (s : State) (r : Request) (st : Status) : (s.answer r st).rstLow = s.rstLow := rfl
@[simp] theorem State.answer_od (s : State) (r : Request) (st : Status) : (s.answer r st).od = s.od := rfl
@[simp] theorem State.answer_ts (s : State) (r : Request) (st : Status) : (s.answer r st).ts = s.ts := rfl
@[simp] theorem State.answer_lc (s : State) (r : Request) (st : Status) : (s.answer r st).lc = s.lc := rfl
@[simp] theorem State.answer_tf (s : State) (r : Request) (st : Status) : (s.answer r st).tf = s.tf := rfl
@[simp] theorem State.answer_pm (s : State) (r : Request) (st : Status) : (s.answer r st).pm = s.pm := rfl
@[simp] theorem State.answer_sc (s : State) (r : Request) (st : Status) : (s.answer r st).sc = s.sc := rfl
@[simp] theorem State.answer_il (s : State) (r : Request) (st : Status) : (s.answer r st).il = s.il := rfl
@[simp] theorem State.answer_lp (s : State) (r : Request) (st : Status) : (s.answer r st).lp = { s.lp with port := .done (r.answer st) } := rfl
@[simp] theorem State.answer_eu (s : State) (r : Request) (st : Status) : (s.answer r st).eu = s.eu := rfl
@[simp] theorem State.answer_paths (s : State) (r : Request) (st : Status) : (s.answer r st).paths = s.paths := rfl
@[simp] theorem State.answer_draws (s : State) (r : Request) (st : Status) : (s.answer r st).draws = s.draws := rfl
@[simp] theorem State.answer_pending (s : State) (r : Request) (st : Status) : (s.answer r st).pending = s.pending := rfl

@[simp] theorem State.stage_rstLow (s : State) (k : Nat) (bs : List Byte) : (s.stage k bs).rstLow = s.rstLow := rfl
@[simp] theorem State.stage_od (s : State) (k : Nat) (bs : List Byte) : (s.stage k bs).od = s.od := rfl
@[simp] theorem State.stage_ts (s : State) (k : Nat) (bs : List Byte) : (s.stage k bs).ts = s.ts := rfl
@[simp] theorem State.stage_lc (s : State) (k : Nat) (bs : List Byte) : (s.stage k bs).lc = s.lc := rfl
@[simp] theorem State.stage_tf (s : State) (k : Nat) (bs : List Byte) : (s.stage k bs).tf = s.tf := rfl
@[simp] theorem State.stage_pm (s : State) (k : Nat) (bs : List Byte) : (s.stage k bs).pm = s.pm := rfl
@[simp] theorem State.stage_sc (s : State) (k : Nat) (bs : List Byte) : (s.stage k bs).sc = s.sc := rfl
@[simp] theorem State.stage_il (s : State) (k : Nat) (bs : List Byte) : (s.stage k bs).il = { s.il with staging := s.il.staging.writeAll k bs } := rfl
@[simp] theorem State.stage_lp (s : State) (k : Nat) (bs : List Byte) : (s.stage k bs).lp = s.lp := rfl
@[simp] theorem State.stage_eu (s : State) (k : Nat) (bs : List Byte) : (s.stage k bs).eu = s.eu := rfl
@[simp] theorem State.stage_paths (s : State) (k : Nat) (bs : List Byte) : (s.stage k bs).paths = s.paths := rfl
@[simp] theorem State.stage_draws (s : State) (k : Nat) (bs : List Byte) : (s.stage k bs).draws = s.draws := rfl
@[simp] theorem State.stage_pending (s : State) (k : Nat) (bs : List Byte) : (s.stage k bs).pending = s.pending := rfl

@[simp] theorem State.readPhase_rstLow (s : State) (p : Phase) : (s.readPhase p).rstLow = s.rstLow := rfl
@[simp] theorem State.readPhase_od (s : State) (p : Phase) : (s.readPhase p).od = s.od := rfl
@[simp] theorem State.readPhase_ts (s : State) (p : Phase) : (s.readPhase p).ts = s.ts := rfl
@[simp] theorem State.readPhase_lc (s : State) (p : Phase) : (s.readPhase p).lc = s.lc := rfl
@[simp] theorem State.readPhase_tf (s : State) (p : Phase) : (s.readPhase p).tf = s.tf := rfl
@[simp] theorem State.readPhase_pm (s : State) (p : Phase) : (s.readPhase p).pm = s.pm := rfl
@[simp] theorem State.readPhase_sc (s : State) (p : Phase) : (s.readPhase p).sc = s.sc := rfl
@[simp] theorem State.readPhase_il (s : State) (p : Phase) : (s.readPhase p).il = { s.il with phase := p } := rfl
@[simp] theorem State.readPhase_lp (s : State) (p : Phase) : (s.readPhase p).lp = s.lp := rfl
@[simp] theorem State.readPhase_eu (s : State) (p : Phase) : (s.readPhase p).eu = s.eu := rfl
@[simp] theorem State.readPhase_paths (s : State) (p : Phase) : (s.readPhase p).paths = s.paths := rfl
@[simp] theorem State.readPhase_draws (s : State) (p : Phase) : (s.readPhase p).draws = s.draws := rfl
@[simp] theorem State.readPhase_pending (s : State) (p : Phase) : (s.readPhase p).pending = s.pending := rfl

@[simp] theorem State.transmitterOff_rstLow (s : State) : (s.transmitterOff).rstLow = s.rstLow := rfl
@[simp] theorem State.transmitterOff_od (s : State) : (s.transmitterOff).od = s.od := rfl
@[simp] theorem State.transmitterOff_ts (s : State) : (s.transmitterOff).ts = s.ts := rfl
@[simp] theorem State.transmitterOff_lc (s : State) : (s.transmitterOff).lc = { s.lc with tx := .off, abandons := 0 } := rfl
@[simp] theorem State.transmitterOff_tf (s : State) : (s.transmitterOff).tf = s.tf := rfl
@[simp] theorem State.transmitterOff_pm (s : State) : (s.transmitterOff).pm = s.pm := rfl
@[simp] theorem State.transmitterOff_sc (s : State) : (s.transmitterOff).sc = s.sc := rfl
@[simp] theorem State.transmitterOff_il (s : State) : (s.transmitterOff).il = s.il := rfl
@[simp] theorem State.transmitterOff_lp (s : State) : (s.transmitterOff).lp = s.lp := rfl
@[simp] theorem State.transmitterOff_eu (s : State) : (s.transmitterOff).eu = s.eu := rfl
@[simp] theorem State.transmitterOff_paths (s : State) : (s.transmitterOff).paths = s.paths := rfl
@[simp] theorem State.transmitterOff_draws (s : State) : (s.transmitterOff).draws = s.draws := rfl
@[simp] theorem State.transmitterOff_pending (s : State) : (s.transmitterOff).pending = s.pending := rfl

@[simp] theorem State.receiverOff_rstLow (s : State) : (s.receiverOff).rstLow = s.rstLow := rfl
@[simp] theorem State.receiverOff_od (s : State) : (s.receiverOff).od = s.od := rfl
@[simp] theorem State.receiverOff_ts (s : State) : (s.receiverOff).ts = s.ts := rfl
@[simp] theorem State.receiverOff_lc (s : State) : (s.receiverOff).lc = { s.lc with view := none, receiving := false } := rfl
@[simp] theorem State.receiverOff_tf (s : State) : (s.receiverOff).tf = s.tf := rfl
@[simp] theorem State.receiverOff_pm (s : State) : (s.receiverOff).pm = s.pm := rfl
@[simp] theorem State.receiverOff_sc (s : State) : (s.receiverOff).sc = s.sc := rfl
@[simp] theorem State.receiverOff_il (s : State) : (s.receiverOff).il = s.il := rfl
@[simp] theorem State.receiverOff_lp (s : State) : (s.receiverOff).lp = s.lp := rfl
@[simp] theorem State.receiverOff_eu (s : State) : (s.receiverOff).eu = s.eu := rfl
@[simp] theorem State.receiverOff_paths (s : State) : (s.receiverOff).paths = { s.paths with toTf := [], toPm := [], toOd := [], toRing := [], notices := [] } := rfl
@[simp] theorem State.receiverOff_draws (s : State) : (s.receiverOff).draws = s.draws := rfl
@[simp] theorem State.receiverOff_pending (s : State) : (s.receiverOff).pending = s.pending := rfl

@[simp] theorem State.startAttempt_rstLow (s : State) (h : Held) : (s.startAttempt h).rstLow = s.rstLow := rfl
@[simp] theorem State.startAttempt_od (s : State) (h : Held) : (s.startAttempt h).od = s.od := rfl
@[simp] theorem State.startAttempt_ts (s : State) (h : Held) : (s.startAttempt h).ts = s.ts := rfl
@[simp] theorem State.startAttempt_lc (s : State) (h : Held) : (s.startAttempt h).lc = { s.lc with tx := .transmitting h, view := some .busy, receiving := false } := rfl
@[simp] theorem State.startAttempt_tf (s : State) (h : Held) : (s.startAttempt h).tf = s.tf := rfl
@[simp] theorem State.startAttempt_pm (s : State) (h : Held) : (s.startAttempt h).pm = s.pm := rfl
@[simp] theorem State.startAttempt_sc (s : State) (h : Held) : (s.startAttempt h).sc = s.sc := rfl
@[simp] theorem State.startAttempt_il (s : State) (h : Held) : (s.startAttempt h).il = s.il := rfl
@[simp] theorem State.startAttempt_lp (s : State) (h : Held) : (s.startAttempt h).lp = s.lp := rfl
@[simp] theorem State.startAttempt_eu (s : State) (h : Held) : (s.startAttempt h).eu = s.eu := rfl
@[simp] theorem State.startAttempt_paths (s : State) (h : Held) : (s.startAttempt h).paths = s.paths := rfl
@[simp] theorem State.startAttempt_draws (s : State) (h : Held) : (s.startAttempt h).draws = s.draws := rfl
@[simp] theorem State.startAttempt_pending (s : State) (h : Held) : (s.startAttempt h).pending = s.pending := rfl

@[simp] theorem State.clearPeers_rstLow (s : State) : (s.clearPeers).rstLow = s.rstLow := rfl
@[simp] theorem State.clearPeers_od (s : State) : (s.clearPeers).od = s.od := rfl
@[simp] theorem State.clearPeers_ts (s : State) : (s.clearPeers).ts = s.ts := rfl
@[simp] theorem State.clearPeers_lc (s : State) : (s.clearPeers).lc = s.lc := rfl
@[simp] theorem State.clearPeers_tf (s : State) : (s.clearPeers).tf = s.tf := rfl
@[simp] theorem State.clearPeers_pm (s : State) : (s.clearPeers).pm = { s.pm with rows := s.pm.rows.map fun _ => PeerRow.cleared s.ownPeriod } := rfl
@[simp] theorem State.clearPeers_sc (s : State) : (s.clearPeers).sc = s.sc := rfl
@[simp] theorem State.clearPeers_il (s : State) : (s.clearPeers).il = s.il := rfl
@[simp] theorem State.clearPeers_lp (s : State) : (s.clearPeers).lp = s.lp := rfl
@[simp] theorem State.clearPeers_eu (s : State) : (s.clearPeers).eu = s.eu := rfl
@[simp] theorem State.clearPeers_paths (s : State) : (s.clearPeers).paths = s.paths := rfl
@[simp] theorem State.clearPeers_draws (s : State) : (s.clearPeers).draws = s.draws := rfl
@[simp] theorem State.clearPeers_pending (s : State) : (s.clearPeers).pending = s.pending := rfl

@[simp] theorem State.detachEntries_rstLow (s : State) : (s.detachEntries).rstLow = s.rstLow := rfl
@[simp] theorem State.detachEntries_od (s : State) : (s.detachEntries).od = { s.od with entries := s.od.entries.map Entry.detached } := rfl
@[simp] theorem State.detachEntries_ts (s : State) : (s.detachEntries).ts = s.ts := rfl
@[simp] theorem State.detachEntries_lc (s : State) : (s.detachEntries).lc = s.lc := rfl
@[simp] theorem State.detachEntries_tf (s : State) : (s.detachEntries).tf = s.tf := rfl
@[simp] theorem State.detachEntries_pm (s : State) : (s.detachEntries).pm = s.pm := rfl
@[simp] theorem State.detachEntries_sc (s : State) : (s.detachEntries).sc = s.sc := rfl
@[simp] theorem State.detachEntries_il (s : State) : (s.detachEntries).il = s.il := rfl
@[simp] theorem State.detachEntries_lp (s : State) : (s.detachEntries).lp = s.lp := rfl
@[simp] theorem State.detachEntries_eu (s : State) : (s.detachEntries).eu = s.eu := rfl
@[simp] theorem State.detachEntries_paths (s : State) : (s.detachEntries).paths = s.paths := rfl
@[simp] theorem State.detachEntries_draws (s : State) : (s.detachEntries).draws = s.draws := rfl
@[simp] theorem State.detachEntries_pending (s : State) : (s.detachEntries).pending = s.pending := rfl

@[simp] theorem State.giveNotice_rstLow (s : State) (n : Byte) (c : NoticeCause) : (s.giveNotice n c).rstLow = s.rstLow := rfl
@[simp] theorem State.giveNotice_od (s : State) (n : Byte) (c : NoticeCause) : (s.giveNotice n c).od = s.od := rfl
@[simp] theorem State.giveNotice_ts (s : State) (n : Byte) (c : NoticeCause) : (s.giveNotice n c).ts = s.ts := rfl
@[simp] theorem State.giveNotice_lc (s : State) (n : Byte) (c : NoticeCause) : (s.giveNotice n c).lc = s.lc := rfl
@[simp] theorem State.giveNotice_tf (s : State) (n : Byte) (c : NoticeCause) : (s.giveNotice n c).tf = s.tf := rfl
@[simp] theorem State.giveNotice_pm (s : State) (n : Byte) (c : NoticeCause) : (s.giveNotice n c).pm = s.pm := rfl
@[simp] theorem State.giveNotice_sc (s : State) (n : Byte) (c : NoticeCause) : (s.giveNotice n c).sc = s.sc := rfl
@[simp] theorem State.giveNotice_il (s : State) (n : Byte) (c : NoticeCause) : (s.giveNotice n c).il = s.il := rfl
@[simp] theorem State.giveNotice_lp (s : State) (n : Byte) (c : NoticeCause) : (s.giveNotice n c).lp = s.lp := rfl
@[simp] theorem State.giveNotice_eu (s : State) (n : Byte) (c : NoticeCause) : (s.giveNotice n c).eu = s.eu := rfl
@[simp] theorem State.giveNotice_paths (s : State) (n : Byte) (c : NoticeCause) : (s.giveNotice n c).paths = { s.paths with notices := s.paths.notices ++ [⟨n, c⟩] } := rfl
@[simp] theorem State.giveNotice_draws (s : State) (n : Byte) (c : NoticeCause) : (s.giveNotice n c).draws = s.draws := rfl
@[simp] theorem State.giveNotice_pending (s : State) (n : Byte) (c : NoticeCause) : (s.giveNotice n c).pending = s.pending := rfl

@[simp] theorem State.resetLine_rstLow (s : State) : (s.resetLine).rstLow = s.rstLow := rfl
@[simp] theorem State.resetLine_od (s : State) : (s.resetLine).od = s.od := rfl
@[simp] theorem State.resetLine_ts (s : State) : (s.resetLine).ts = s.ts := rfl
@[simp] theorem State.resetLine_lc (s : State) : (s.resetLine).lc = { s.lc with tx := .idle, receiving := false, abandons := 0, recovery := false } := rfl
@[simp] theorem State.resetLine_tf (s : State) : (s.resetLine).tf = s.tf := rfl
@[simp] theorem State.resetLine_pm (s : State) : (s.resetLine).pm = s.pm := rfl
@[simp] theorem State.resetLine_sc (s : State) : (s.resetLine).sc = s.sc := rfl
@[simp] theorem State.resetLine_il (s : State) : (s.resetLine).il = s.il := rfl
@[simp] theorem State.resetLine_lp (s : State) : (s.resetLine).lp = s.lp := rfl
@[simp] theorem State.resetLine_eu (s : State) : (s.resetLine).eu = s.eu := rfl
@[simp] theorem State.resetLine_paths (s : State) : (s.resetLine).paths = s.paths := rfl
@[simp] theorem State.resetLine_draws (s : State) : (s.resetLine).draws = s.draws := rfl
@[simp] theorem State.resetLine_pending (s : State) : (s.resetLine).pending = s.pending := rfl

@[simp] theorem State.flush_rstLow (s : State) : (s.flush).rstLow = s.rstLow := rfl
@[simp] theorem State.flush_od (s : State) : (s.flush).od = { s.od with entries := s.od.entries.map (fun e => { e with slot := .none }), urgentOwed := [], routineOwed := [] } := rfl
@[simp] theorem State.flush_ts (s : State) : (s.flush).ts = { urgent := [], routine := [], backlog := false } := rfl
@[simp] theorem State.flush_lc (s : State) : (s.flush).lc = { s.lc with tx := s.lc.tx.dropped } := rfl
@[simp] theorem State.flush_tf (s : State) : (s.flush).tf = s.tf := rfl
@[simp] theorem State.flush_pm (s : State) : (s.flush).pm = s.pm := rfl
@[simp] theorem State.flush_sc (s : State) : (s.flush).sc = { s.sc with presence := .none } := rfl
@[simp] theorem State.flush_il (s : State) : (s.flush).il = s.il := rfl
@[simp] theorem State.flush_lp (s : State) : (s.flush).lp = s.lp := rfl
@[simp] theorem State.flush_eu (s : State) : (s.flush).eu = s.eu := rfl
@[simp] theorem State.flush_paths (s : State) : (s.flush).paths = { s.paths with reports := [], presenceReport := none } := rfl
@[simp] theorem State.flush_draws (s : State) : (s.flush).draws = s.draws := rfl
@[simp] theorem State.flush_pending (s : State) : (s.flush).pending = s.pending := rfl

@[simp] theorem State.tick_rstLow (s : State) : (s.tick).rstLow = s.rstLow := rfl
@[simp] theorem State.tick_ts (s : State) : (s.tick).ts = s.ts := rfl
@[simp] theorem State.tick_lc (s : State) : (s.tick).lc = s.lc := rfl
@[simp] theorem State.tick_tf (s : State) : (s.tick).tf = s.tf := rfl
@[simp] theorem State.tick_lp (s : State) : (s.tick).lp = s.lp := rfl
@[simp] theorem State.tick_paths (s : State) : (s.tick).paths = s.paths := rfl
@[simp] theorem State.tick_draws (s : State) : (s.tick).draws = s.draws := rfl
@[simp] theorem State.tick_pending (s : State) : (s.tick).pending = s.pending := rfl

@[simp] theorem State.afterRouted_rstLow (s : State) (rest : List Telegram) : (s.afterRouted rest).rstLow = s.rstLow := rfl
@[simp] theorem State.afterRouted_od (s : State) (rest : List Telegram) : (s.afterRouted rest).od = s.od := rfl
@[simp] theorem State.afterRouted_ts (s : State) (rest : List Telegram) : (s.afterRouted rest).ts = s.ts := rfl
@[simp] theorem State.afterRouted_lc (s : State) (rest : List Telegram) : (s.afterRouted rest).lc = s.lc := rfl
@[simp] theorem State.afterRouted_tf (s : State) (rest : List Telegram) : (s.afterRouted rest).tf = s.tf := rfl
@[simp] theorem State.afterRouted_pm (s : State) (rest : List Telegram) : (s.afterRouted rest).pm = s.pm := rfl
@[simp] theorem State.afterRouted_sc (s : State) (rest : List Telegram) : (s.afterRouted rest).sc = s.sc := rfl
@[simp] theorem State.afterRouted_il (s : State) (rest : List Telegram) : (s.afterRouted rest).il = s.il := rfl
@[simp] theorem State.afterRouted_lp (s : State) (rest : List Telegram) : (s.afterRouted rest).lp = s.lp := rfl
@[simp] theorem State.afterRouted_eu (s : State) (rest : List Telegram) : (s.afterRouted rest).eu = s.eu := rfl
@[simp] theorem State.afterRouted_paths (s : State) (rest : List Telegram) : (s.afterRouted rest).paths = { s.paths with toOd := rest } := rfl
@[simp] theorem State.afterRouted_draws (s : State) (rest : List Telegram) : (s.afterRouted rest).draws = s.draws := rfl
@[simp] theorem State.afterRouted_pending (s : State) (rest : List Telegram) : (s.afterRouted rest).pending = s.pending := rfl

@[simp] theorem State.tick_clock (s : State) : s.tick.eu.clock = s.eu.clock + 1#16 := rfl
@[simp] theorem State.tick_entries (s : State) : s.tick.od.entries = s.od.entries.map Entry.tick := rfl
@[simp] theorem State.tick_rows (s : State) : s.tick.pm.rows = s.pm.rows.map PeerRow.tick := rfl

end Sys2Proof.Machine
end

