-- ==== Sys2Proof/Tests/Slice0.lean ====
section
/-! SUPPORT. The model's own tests: the well-formedness smoke, numbers and examples the manual prints, one small step of each kind of command,
and for every obligation with hypotheses a state and operands that meet them, clause by clause. -/

namespace Sys2Proof.Tests
open Sys2Proof.Machine

/-! ## Well-formedness: each check refuses an ill-formed command -/

theorem test_wf_readHeader : (Instr.readHeader (List.replicate 17 0#8)).wellFormed = true ∧ (Instr.readHeader (List.replicate 16 0#8)).wellFormed = false
    ∧ (Instr.readHeader (List.replicate 18 0#8)).wellFormed = false := by decide
theorem test_wf_readRemainder : (Instr.readRemainder (List.replicate 12 0#8)).wellFormed = true ∧ (Instr.readRemainder (List.replicate 2 0#8)).wellFormed = false
    ∧ (Instr.readRemainder (List.replicate 13 0#8)).wellFormed = false := by decide
theorem test_wf_collision : (Instr.collision 407 true).wellFormed = true ∧ (Instr.collision 408 true).wellFormed = false := by decide
theorem test_wf_reception : (Instr.reception (startSequence ++ [true])).wellFormed = true ∧ (Instr.reception [false, true]).wellFormed = false
    ∧ (Instr.reception []).wellFormed = false := by decide
theorem test_wf_freshness : (Instr.freshnessDeadlineExpiry 1).wellFormed = true ∧ (Instr.freshnessDeadlineExpiry 0).wellFormed = false := by decide
theorem test_wf_refresh : (Instr.refreshTimerExpiry 64).wellFormed = true ∧ (Instr.refreshTimerExpiry 65).wellFormed = false := by decide
theorem test_wf_spacing : (Instr.spacingTimerExpiry 1).wellFormed = true ∧ (Instr.spacingTimerExpiry 0).wellFormed = false := by decide
theorem test_wf_window : (Instr.claimWindowExpiry 64).wellFormed = true ∧ (Instr.claimWindowExpiry 65).wellFormed = false := by decide
theorem test_wf_takeover : (Instr.takeoverTimerExpiry 1).wellFormed = true ∧ (Instr.takeoverTimerExpiry 0).wellFormed = false := by decide
theorem test_wf_silence : (Instr.silenceDeadlineExpiry 31).wellFormed = true ∧ (Instr.silenceDeadlineExpiry 0).wellFormed = false
    ∧ (Instr.silenceDeadlineExpiry 32).wellFormed = false := by decide

/-! ## Numbers the manual prints -/

/-- R104. -/
theorem test_interestBits : interestBit 40#12 = 40 ∧ interestBit 300#12 = 40 ∧ interestBit 1000#12 = 39 ∧ interestBit 1064#12 = 56
    ∧ interestBit 4094#12 = 1 := by decide
/-- R8. -/
theorem test_keys : key 0#4 9#8 = 9 ∧ key 1#4 4#8 = 36 ∧ key 2#4 2#8 = 66 ∧ key 15#4 17#8 = 497 := by decide
/-- R9, and the worked sequence of chapter 1. -/
theorem test_versionOrder : versionOrder 3#8 250#8 = .newer ∧ versionOrder 250#8 3#8 = .older ∧ versionOrder 1#8 254#8 = .newer
    ∧ versionOrder 5#8 5#8 = .same ∧ versionOrder 127#8 0#8 = .newer ∧ versionOrder 128#8 0#8 = .older := by decide
/-- R118. -/
theorem test_backoffRanges : [1, 2, 3, 4, 5, 6, 7].map backoffRange = [2, 4, 8, 16, 16, 16, 16] := by decide
/-- R121: the check value of the bytes "123456789" under this generator and start value. -/
theorem test_crc : crc16 [0x31#8, 0x32#8, 0x33#8, 0x34#8, 0x35#8, 0x36#8, 0x37#8, 0x38#8, 0x39#8] = 0x29B1#16 := by decide +kernel
/-- R203: the first and the last declaration of a full image, and the check bytes behind it. -/
theorem test_imageOffsets : declOffset 1 = 17 ∧ declOffset 64 = 647 ∧ 17 + 10 * 64 + 2 = Config.stagingSize := by decide
/-- R202: the shortest telegram's header, written out; object id 300 is 12Ch. -/
theorem test_telegramHeader : (Telegram.mk 3#4 0#4 4#8 300#12 1#4 0#8 0#8 []).body = [0x30#8, 4#8, 0x12#8, 0xC1#8, 0#8, 0#8] := by decide
/-- R110: a byte on the line, and the length of the shortest telegram in bit times. -/
theorem test_levels : byteLevels 0x31#8 = [false, true, false, false, false, true, true, false, false, true]
    ∧ (Telegram.mk 3#4 0#4 4#8 300#12 1#4 0#8 0#8 []).levels.length = 88 := by decide
/-- R205: event bytes in the window. -/
theorem test_eventBytes : (EventRecord.mk (.claimOutcome .won) 300#12 7#8 (some 3#8) 0x1234#16).bytes = [1#8, 1#8, 1#8, 0x2C#8, 7#8, 3#8, 0x12#8, 0x34#8]
    ∧ (EventRecord.mk .stale 300#12 0#8 none 0#16).bytes = [6#8, 0#8, 0x81#8, 0x2C#8, 0#8, 0#8, 0#8, 0#8]
    ∧ (EventRecord.mk (.station .active .listenDone) 5#12 0#8 (some 0#8) 0#16).bytes.take 2 = [13#8, 0x45#8] := by decide

/-! ## Small states -/

/-- The state after a command. -/
def after (c : Instr) (s : State) : State :=
  match exec c s with
  | .next t => t
  | .fault _ | .refused _ => s

def dHome : Decl := ⟨300#12, .home, 0#4, false, .routine, .every, 4, 20, 2, 0⟩
def dSpare : Decl := ⟨301#12, .spare, 2#4, true, .routine, .change, 4, 20, 2, 10⟩
def dUrgent : Decl := ⟨302#12, .spare, 1#4, false, .urgent, .none, 4, 20, 2, 0⟩
def dListen : Decl := ⟨303#12, .listen, 15#4, false, .routine, .none, 4, 20, 2, 0⟩

/-- An entry with version 7, one value byte and every timer stopped. -/
def entryOf (d : Decl) (ow : Ownership) (slot : Slot) : Entry := ⟨d, ow, some 7#8, [1#8], .fresh, slot, none, none, none, none, none, none⟩

/-- An installed station of number 5 with these entries, its transmitter idle on a quiet line. -/
def station (st : StationState) (es : List Entry) : State := { State.reset with
  od := ⟨es, [], [], some 20⟩
  lc := ⟨.idle, some .quiet, false, 0, false, some 1#2⟩
  pm := ⟨State.reset.pm.rows.map fun _ => ⟨false, none, 30, none⟩⟩
  sc := { State.reset.sc with state := st, number := some 5#8, epoch := some 9#12, period := some 30, joinListen := some 50, muteInterval := some 100,
                              autoJoin := some true }
  il := { State.reset.il with phase := .installed }
  eu := { State.reset.eu with queue := [] } }

def active (es : List Entry) : State := station .active es
def unknown : Ownership := .consumer .unknown
/-- Station 9 is the recorded owner at rank 1. -/
def foreign9 : Ownership := .consumer (.foreign 9#8 1#4 false)
def orphan9 : Ownership := .consumer (.orphaned 9#8 1#4)
def claiming : Ownership := .claiming .unknown false
def publish : Outbound := ⟨.publish, .routine, false, false, none⟩
def claim : Outbound := ⟨.claim, .urgent, false, false, none⟩
def query : Outbound := ⟨.query, .routine, false, false, none⟩
def yielding (n : Option Byte) : Outbound := ⟨.yield, .urgent, false, false, n⟩

/-- The port WORKING on a request of these bytes. -/
def working (bytes : List Byte) (s : State) : State := { s with lp := { s.lp with port := .working (Memory.writeAll [] 0 bytes) } }
/-- A request's first eight bytes: code, tag 6, object id, length, first parameter. -/
def request (code : Byte) (id : BitVec 16) (length first : Byte) : List Byte := [code, 6#8, highByte id, lowByte id, length, first, 0#8, 0#8]
def requestOf (bytes : List Byte) : Request := Request.ofArea (Memory.writeAll [] 0 bytes)
/-- The status the port shows, if it is DONE. -/
def status (s : State) : Option Status :=
  match s.lp.port with
  | .done q => some q.status
  | .ready | .working _ => none

/-- A telegram routed to OD. -/
def routedTo (t : Telegram) (s : State) : State := { s with paths := { s.paths with toOd := [t] } }
def publishOf9 (version : Byte) (length : Byte) : Telegram := ⟨1#4, 0#4, 9#8, 301#12, 1#4, version, length, List.replicate length.toNat 2#8⟩
def slotOf (s : State) (i : Nat) : Option Slot := (s.entry? i).map fun e => e.slot
def ownershipOf (s : State) (i : Nat) : Option Ownership := (s.entry? i).map fun e => e.ownership
def kinds (s : State) : List EventKind := s.eu.queue.map fun r => r.kind

theorem serves_working {c : RequestCode} {bytes : List Byte} {s : State} (h : s.rstLow = false) (hc : (requestOf bytes).code = c.byte) :
    (working bytes s).serves c (requestOf bytes) := ⟨h, hc, _, rfl, rfl⟩

/-! ## The machine and the port: a state and operands that meet the hypotheses of each clause, with what the command then does -/

theorem test_step : step { State.reset with pending := [.rstNAssert, .submit] } = .next { State.reset with rstLow := true, pending := [.submit] }
    ∧ State.reset.pending = [] ∧ step State.reset = .next State.reset := ⟨rfl, rfl, rfl⟩

/-- RST_N low with a release; a RESTART of scope FULL (also the hypotheses of its clause in the table of R177). -/
theorem test_fullRestart : after .rstNRelease { active [] with rstLow := true } = State.reset
    ∧ (working (request 13#8 0#16 0#8 2#8) (active [])).serves .restart (requestOf (request 13#8 0#16 0#8 2#8))
    ∧ (requestOf (request 13#8 0#16 0#8 2#8)).first = 2#8
    ∧ kinds (after .restartFull (working (request 13#8 0#16 0#8 2#8) (active []))) = [.station .loading .restartFull] :=
  ⟨by decide, serves_working rfl rfl, by decide, by decide⟩

theorem test_rstLow : ({ active [] with rstLow := true } : State).rstLow = true ∧ Instr.submit ≠ .powerUp ∧ Instr.submit ≠ .rstNRelease
    ∧ after .submit { active [] with rstLow := true } = { active [] with rstLow := true }
    ∧ ({ active [] with rstLow := true } : State).portRead 48#6 = none := by decide

/-- The window at the edges of its ranges: 0, 39, 40, 47, 48, 49, 50, 51, 52 and 63, in READY and in DONE. -/
theorem test_portWindow : State.reset.lp.request.wf = true
    ∧ (after (.portWrite 0#6 1#8) State.reset).lp.request = [(0, 1#8)] ∧ (after (.portWrite 39#6 1#8) State.reset).lp.request = [(39, 1#8)]
    ∧ [40#6, 48#6, 52#6, 63#6].all (fun a => decide (after (.portWrite a 1#8) State.reset = State.reset)) = true
    ∧ status (after (.portWrite 49#6 1#8) State.reset) = some .badRequest
    ∧ (after (.portWrite 50#6 1#8) (after .submit State.reset)).lp.port = .ready
    ∧ kinds (after (.portWrite 51#6 1#8) State.reset) = []
    ∧ (after .submit State.reset).portRead 2#6 = some 8#8 ∧ (after (.portWrite 39#6 1#8) State.reset).portRead 39#6 = some 1#8
    ∧ (after .eventNext State.reset).portRead 40#6 = some 13#8 ∧ (after .eventNext State.reset).portRead 47#6 = some 0#8
    ∧ State.reset.portRead 48#6 = some 0#8 ∧ State.reset.portRead 49#6 = some 0#8 ∧ State.reset.portRead 63#6 = some 0#8 := by decide

/-- LP's checks at their edges: codes 0, 1, 14, 15, scopes 0 to 3, tag 0 with CLAIM; and SUBMIT while WORKING. -/
theorem test_submit : (active []).lp.port = .ready
    ∧ [[0#8, 6#8], [15#8, 6#8], [13#8, 6#8, 0#8, 0#8, 0#8, 3#8], [13#8, 6#8], [3#8, 0#8], [4#8, 0#8]].all (fun bytes =>
        decide (status (after .submit { active [] with lp := { (active []).lp with request := Memory.writeAll [] 0 bytes } }) = some .badRequest)) = true
    ∧ [[1#8, 0#8], [14#8, 0#8], [13#8, 0#8, 0#8, 0#8, 0#8, 1#8], [13#8, 0#8, 0#8, 0#8, 0#8, 2#8], [3#8, 1#8], [4#8, 255#8]].all (fun bytes =>
        decide ((after .submit { active [] with lp := { (active []).lp with request := Memory.writeAll [] 0 bytes } }).lp.port
          = .working (Memory.writeAll [] 0 bytes))) = true
    ∧ (after .submit (working [1#8] (active []))).lp.submitIgnored = true := by decide

theorem test_retire : status (after .submit State.reset) = some .badRequest ∧ (after .retire (after .submit State.reset)).lp.port = .ready
    ∧ (after .retire (working [1#8] (active []))).lp.port = .working [(0, 1#8)] ∧ after .retire (active []) = active [] := by decide

/-! ## The Event Unit -/

/-- A record for a queue of any length. -/
def record : EventRecord := ⟨.arrival, 300#12, 0#8, some 7#8, 0#16⟩
/-- A station whose event queue holds n records, with so many lost. -/
def queueOf (n : Nat) (lost : Byte) : State := { active [] with eu := { (active []).eu with queue := List.replicate n record, lost := lost } }

theorem test_eventNext : (queueOf 0 0#8).eu.queue = [] ∧ (after .eventNext (queueOf 0 0#8)).eu.window.kind = .none
    ∧ (queueOf 2 0#8).eu.queue = record :: [record] ∧ (after .eventNext (queueOf 2 0#8)).eu.queue = [record]
    ∧ (queueOf 32 1#8).eu.lost ≠ 0#8 ∧ (after .eventNext (queueOf 32 1#8)).eu.queue.length = 32
    ∧ (kinds (after .eventNext (queueOf 32 1#8))).getLast? = some (.lost 1#8) ∧ (after .eventNext (queueOf 32 1#8)).eu.lost = 0#8
    ∧ Instr.submit ≠ .eventNext ∧ (after .submit (queueOf 2 0#8)).eu.window = (queueOf 2 0#8).eu.window := by decide

/-- Counter values at the edges of the increment. -/
def counted (v : BitVec 16) (armed : Bool) : State := { active [] with eu := { (active []).eu with counters := Counters.zero.set .rxGood v, harvestArmed := armed } }

theorem test_posting : (queueOf 31 0#8).eu.queue.length < 32 ∧ ((queueOf 31 0#8).post .arrival 1#12 0#8 none).eu.queue.length = 32
    ∧ ((queueOf 32 254#8).post .arrival 1#12 0#8 none).eu.lost = 255#8 ∧ ((queueOf 32 255#8).post .arrival 1#12 0#8 none).eu.lost = 255#8
    ∧ ((counted 65535#16 true).bump .rxGood).eu.counters.rxGood = 65535#16 ∧ ((counted 65534#16 true).bump .rxGood).eu.counters.rxGood = 65535#16
    ∧ kinds ((counted 49151#16 true).bump .rxGood) = [.harvest] ∧ kinds ((counted 49151#16 false).bump .rxGood) = []
    ∧ kinds ((counted 49150#16 true).bump .rxGood) = [] ∧ kinds ((counted 49152#16 true).bump .rxGood) = []
    ∧ Counter.txSent ≠ .rxGood := by decide

/-- Every category holds the attention line by its own mask position alone. -/
theorem test_attention :
    [(EventKind.claimOutcome .won, 1#6), (.arrival, 2#6), (.peer .joined, 4#6), (.line .muted, 8#6), (.harvest, 16#6), (.none, 0#6)].all (fun p =>
      [1#6, 2#6, 4#6, 8#6, 16#6, 32#6].all fun mask =>
        decide (({ active [] with eu := { (active []).eu with queue := [{ record with kind := p.1 }], mask := mask } } : State).attention
          = decide (p.2 = mask))) = true
    ∧ (after .submit { active [] with eu := { (active []).eu with mask := 32#6 } }).attention = true := by decide

theorem test_countersAttend : (working (request 8#8 0#16 0#8 0#8) (counted 258#16 false)).serves .counters (requestOf (request 8#8 0#16 0#8 0#8))
    ∧ (after .counters (working (request 8#8 0#16 0#8 0#8) (counted 258#16 false))).portRead 10#6 = some 1#8
    ∧ (after .counters (working (request 8#8 0#16 0#8 0#8) (counted 258#16 false))).eu.harvestArmed = true
    ∧ (working (request 10#8 0#16 0#8 0xC1#8) (active [])).serves .attend (requestOf (request 10#8 0#16 0#8 0xC1#8))
    ∧ (after .attend (working (request 10#8 0#16 0#8 0xC1#8) (active []))).eu.mask = 1#6
    ∧ (after .attend (working (request 10#8 0#16 0#8 0xC1#8) (active []))).portRead 8#6 = some 63#8 :=
  ⟨serves_working rfl rfl, by decide, by decide, serves_working rfl rfl, by decide, by decide⟩

/-! ## Requests -/

/-- The table of R177: each request in the first state that accepts it and in one that does not. -/
theorem test_acceptance :
    ([(.read, 1#8, .detached, .unconfigured), (.peer, 6#8, .faulted, .loading), (.takeUnlisted, 9#8, .muted, .unconfigured), (.write, 2#8, .active, .leaving),
      (.claim, 3#8, .active, .listening), (.release, 4#8, .active, .muted), (.query, 5#8, .active, .detached), (.leave, 12#8, .muted, .leaving),
      (.load, 14#8, .unconfigured, .loading), (.status, 7#8, .loading, .loading)] : List (Instr × Byte × StationState × StationState)).all (fun row =>
      let bytes := request row.2.1 300#16 0#8 0#8
      decide ((status (after row.1 (working bytes (station row.2.2.1 [])))).isSome = true)
        && decide (status (after row.1 (working bytes (station row.2.2.1 []))) ≠ some .wrongState)
        && (decide (row.2.2.1 = row.2.2.2) || decide (status (after row.1 (working bytes (station row.2.2.2 []))) = some .wrongState))) = true
    ∧ status (after .loadFinish (working (request 14#8 0#16 0#8 1#8) (station .active []))) = some .wrongState
    ∧ status (after .restartLine (working (request 13#8 0#16 0#8 1#8) (station .loading []))) = some .wrongState
    ∧ status (after .join (working (request 11#8 0#16 0#8 0#8) (active []))) = some .wrongState
    ∧ (Instr.write, RequestCode.write, [StationState.active]) ∈ [(Instr.write, RequestCode.write, [StationState.active])]
    ∧ (working (request 2#8 300#16 0#8 0#8) (active [])).serves .write (requestOf (request 2#8 300#16 0#8 0#8)) :=
  ⟨by decide +kernel, by decide, by decide, by decide, by decide, serves_working rfl rfl⟩

/-- READ of an id no entry carries, and of entries in the six states. -/
theorem test_read : (working (request 1#8 9#16 0#8 0#8) (active [entryOf dHome unknown .none])).serves .read (requestOf (request 1#8 9#16 0#8 0#8))
    ∧ (∀ e ∈ (active [entryOf dHome unknown .none]).od.entries, e.decl.objectId.toNat ≠ 9)
    ∧ status (after .read (working (request 1#8 9#16 0#8 0#8) (active [entryOf dHome unknown .none]))) = some .noObject
    ∧ (active [entryOf dHome unknown .none, entryOf dSpare foreign9 .none]).carries 301 2 (entryOf dSpare foreign9 .none)
    ∧ ([(unknown, 0x01#8, 0#8), (foreign9, 0x11#8, 9#8), (orphan9, 0x21#8, 9#8), (claiming, 0x32#8, 5#8), (.own, 0x42#8, 5#8), (.yielding, 0x52#8, 5#8)]
        : List (Ownership × Byte × Byte)).all (fun row =>
        let t := after .read (working (request 1#8 301#16 0#8 0#8) (active [entryOf dSpare row.1 .none]))
        decide (t.portRead 6#6 = some row.2.2)
          && decide (t.portRead 4#6 = some (if row.1 = unknown then 0x00#8 else row.2.1)) && decide (t.portRead 5#6 = some 0x01#8)) = true :=
  ⟨serves_working rfl rfl, by decide, by decide, ⟨by decide, by decide⟩, by decide +kernel⟩

/-- WRITE: the checks in order, a length at the maximum and one above it, length 0, and each kind of slot. -/
theorem test_write :
    let own := fun slot => active [entryOf dHome .own slot]
    let ask := fun (length : Byte) (s : State) => working (request 2#8 300#16 length 0#8 ++ [8#8, 9#8, 10#8, 11#8, 12#8]) s
    (ask 4#8 (own .none)).serves .write (requestOf (request 2#8 300#16 4#8 0#8 ++ [8#8, 9#8, 10#8, 11#8, 12#8]))
    ∧ (own .none).carries 300 1 (entryOf dHome .own .none)
    ∧ status (after .write (ask 4#8 (station .leaving []))) = some .wrongState ∧ status (after .write (ask 4#8 (active []))) = some .noObject
    ∧ status (after .write (ask 4#8 (active [entryOf dHome .yielding .none]))) = some .notOwner
    ∧ status (after .write (ask 5#8 (own .none))) = some .length ∧ status (after .write (ask 4#8 (own .none))) = some .ok
    ∧ ((after .write (ask 4#8 (own .none))).entry? 1).map (fun e => (e.value, e.version)) = some ([8#8, 9#8, 10#8, 11#8], some 8#8)
    ∧ ((after .write (ask 0#8 (own .none))).entry? 1).map (fun e => e.value) = some []
    ∧ slotOf (after .write (ask 4#8 (own .none))) 1 = some (.queued publish)
    ∧ slotOf (after .write (ask 4#8 (active [{ entryOf dHome .own .none with spacingTimer := some 1 }]))) 1 = some (.waiting publish)
    ∧ slotOf (after .write (ask 4#8 (own (.waiting { publish with refresh := true })))) 1 = some (.waiting publish)
    ∧ slotOf (after .write (ask 4#8 (own (.queued { publish with refresh := true })))) 1 = some (.queued publish)
    ∧ slotOf (after .write (ask 4#8 (own (.owed { publish with refresh := true })))) 1 = some (.owed publish)
    ∧ slotOf (after .write (ask 4#8 (own (.inFlight publish .none)))) 1 = some (.inFlight publish (.publish .routine))
    ∧ slotOf (after .write (ask 4#8 (own (.inFlight claim (.publish .urgent))))) 1 = some (.inFlight claim (.publish .urgent)) :=
  ⟨serves_working rfl rfl, ⟨by decide, by decide⟩, by decide +kernel⟩

/-- CLAIM: a LISTEN entry, an own state, a blocking and a cancelled telegram in flight, and a free entry. -/
theorem test_claim :
    let ask := fun (e : Entry) => working (request 3#8 (e.decl.objectId.setWidth 16) 0#8 0#8) (active [e])
    (ask (entryOf dSpare unknown .none)).serves .claim (requestOf (request 3#8 301#16 0#8 0#8))
    ∧ status (after .claim (working (request 3#8 301#16 0#8 0#8) (station .muted []))) = some .wrongState
    ∧ status (after .claim (working (request 3#8 301#16 0#8 0#8) (active []))) = some .noObject
    ∧ status (after .claim (ask (entryOf dListen unknown .none))) = some .notEligible
    ∧ (∀ v, (entryOf dSpare .own .none).ownership ≠ .consumer v) ∧ status (after .claim (ask (entryOf dSpare .own .none))) = some .already
    ∧ ¬ (query.kind = .claim ∧ FollowUp.none = .cancel) ∧ status (after .claim (ask (entryOf dSpare foreign9 (.inFlight query .none)))) = some .already
    ∧ status (after .claim (ask (entryOf dSpare foreign9 (.inFlight claim .cancel)))) = some .accepted
    ∧ slotOf (after .claim (ask (entryOf dSpare foreign9 (.inFlight claim .cancel)))) 1 = some (.inFlight claim .none)
    ∧ status (after .claim (ask (entryOf dSpare foreign9 .none))) = some .accepted
    ∧ slotOf (after .claim (ask (entryOf dSpare foreign9 .none))) 1 = some (.queued claim)
    ∧ ((after .claim (ask (entryOf dSpare foreign9 .none))).entry? 1).map (fun e => e.pendingTag) = some (some 6#8) :=
  ⟨serves_working rfl rfl, by decide, by decide, by decide, (fun _ h => nomatch h), by decide +kernel⟩

/-- RELEASE of an OWN entry with each kind of slot, of a claim queued, in flight and in its window, and of the other states. -/
theorem test_release :
    let ask := fun (e : Entry) => working (request 4#8 (e.decl.objectId.setWidth 16) 0#8 0#8) (active [e])
    (ask (entryOf dSpare .own .none)).serves .release (requestOf (request 4#8 301#16 0#8 0#8))
    ∧ slotOf (after .release (ask (entryOf dSpare .own .none))) 1 = some (.queued (yielding none))
    ∧ slotOf (after .release (ask (entryOf dSpare .own (.waiting publish)))) 1 = some (.queued (yielding none))
    ∧ slotOf (after .release (ask (entryOf dSpare .own (.inFlight publish .none)))) 1 = some (.inFlight publish (.yield none))
    ∧ ownershipOf (after .release (ask (entryOf dSpare .own .none))) 1 = some .yielding
    ∧ status (after .release (ask (entryOf dSpare claiming (.inFlight claim .none)))) = some .accepted
    ∧ status (after .release (ask (entryOf dSpare claiming .none))) = some .ok
    ∧ kinds (after .release (ask (entryOf dSpare claiming .none))) = [.claimOutcome .cancelled]
    ∧ status (after .release (ask (entryOf dSpare .yielding (.queued (yielding none))))) = some .notOwner
    ∧ status (after .release (ask (entryOf dSpare foreign9 .none))) = some .notOwner :=
  ⟨serves_working rfl rfl, by decide +kernel⟩

theorem test_query :
    let ask := fun (e : Entry) => working (request 5#8 (e.decl.objectId.setWidth 16) 0#8 0#8) (active [e])
    (ask (entryOf dSpare unknown .none)).serves .query (requestOf (request 5#8 301#16 0#8 0#8))
    ∧ status (after .query (ask (entryOf dSpare .own .none))) = some .already
    ∧ status (after .query (ask (entryOf dSpare unknown (.queued query)))) = some .already
    ∧ status (after .query (ask (entryOf dSpare unknown .none))) = some .ok
    ∧ slotOf (after .query (ask (entryOf dSpare unknown .none))) 1 = some (.queued query) :=
  ⟨serves_working rfl rfl, by decide, by decide, by decide, by decide⟩

/-- PEER at the edges of the range, for the own number, and of a row. -/
theorem test_peer :
    let ask := fun (n : Byte) => working (request 6#8 0#16 0#8 n) (active [])
    (ask 31#8).serves .peer (requestOf (request 6#8 0#16 0#8 31#8)) ∧ (ask 31#8).rowIs 31 ⟨false, none, 30, none⟩
    ∧ [0#8, 32#8, 5#8].all (fun n => decide (status (after .peer (ask n)) = some .badRequest)) = true
    ∧ [1#8, 31#8].all (fun n => decide (status (after .peer (ask n)) = some .ok)) = true ∧ (after .peer (ask 31#8)).portRead 10#6 = some 30#8
    ∧ (after .peer (ask 31#8)).portRead 4#6 = some 0x80#8 ∧ (after .peer (ask 31#8)).portRead 5#6 = some 0#8 :=
  ⟨serves_working rfl rfl, ⟨by decide, by decide⟩, by decide⟩

/-- A capture to find, and the state that holds n of them with one on its way. -/
def capture : Capture := ⟨40#12, 9#8, 1#8, [2#8]⟩
def ringOf (n : Nat) : State := { active [] with
  tf := { (active []).tf with ring := List.replicate n capture }
  paths := { (active []).paths with toRing := [publishOf9 3#8 1#8] } }

theorem test_ring :
    let ask := fun (s : State) => working (request 9#8 0#16 0#8 0#8) s
    (ask (ringOf 0)).serves .takeUnlisted (requestOf (request 9#8 0#16 0#8 0#8))
    ∧ status (after .takeUnlisted (ask (ringOf 0))) = some .empty
    ∧ status (after .takeUnlisted (ask (ringOf 4))) = some .ok ∧ (after .takeUnlisted (ask (ringOf 4))).portRead 4#6 = some 0x30#8
    ∧ (after .takeUnlisted (ask (ringOf 1))).portRead 4#6 = some 0#8
    ∧ (after .capture (ringOf 3)).tf.ring.length = 4 ∧ (after .capture (ringOf 4)).tf.ring.length = 4
    ∧ (after .capture (ringOf 4)).tf.ring.getLast? = some ⟨301#12, 9#8, 3#8, [2#8]⟩ ∧ kinds (after .capture (ringOf 4)) = [.unlisted] :=
  ⟨serves_working rfl rfl, by decide +kernel⟩

theorem test_status : (working (request 7#8 0#16 0#8 0#8) (active [])).serves .status (requestOf (request 7#8 0#16 0#8 0#8))
    ∧ [(0, 7#8), (2, 0#8), (4, 0#8), (5, 9#8), (6, 5#8), (7, 7#8), (8, 4#8)].all (fun p =>
        decide ((after .status (working (request 7#8 0#16 0#8 0#8) (active []))).portRead (BitVec.ofNat 6 p.1) = some p.2)) = true
    ∧ (after .status (working (request 7#8 0#16 0#8 0#8) State.reset)).portRead 4#6 = some 0x80#8 :=
  ⟨serves_working rfl rfl, by decide⟩

/-! ## The station's life cycle -/

/-- JOIN in DETACHED and the end of a mute. The epoch drawn is a free value, so the test looks at everything else. -/
theorem test_join :
    let ask := working (request 11#8 0#16 0#8 0#8) (station .detached [])
    let muted := { station .muted [] with sc := { (station .muted []).sc with muteTimer := some 0 } }
    ask.serves .join (requestOf (request 11#8 0#16 0#8 0#8)) ∧ (after .join ask).sc.state = .listening ∧ (after .join ask).sc.joinTimer = some 50
    ∧ (after .join ask).ts.routine = [.presence] ∧ kinds (after .join ask) = [.station .listening .join]
    ∧ muted.sc.muteTimer = some 0 ∧ (after .muteTimerExpiry muted).sc.state = .listening ∧ (after .muteTimerExpiry muted).lc.view = some .busy
    ∧ [station .muted [], { muted with sc := { muted.sc with state := .active } }].all (fun s => decide (after .muteTimerExpiry s = s)) = true :=
  ⟨serves_working rfl rfl, by decide +kernel⟩

/-- LEAVE in ACTIVE with an entry of each ownership state, and in LISTENING and MUTED. -/
theorem test_leave :
    let ask := working (request 12#8 0#16 0#8 0#8)
    let s := ask (active [entryOf dHome .own .none, entryOf dSpare claiming (.inFlight claim .none), entryOf dUrgent claiming .none,
      { entryOf dSpare unknown .none with takeoverTimer := some 3 }])
    s.serves .leave (requestOf (request 12#8 0#16 0#8 0#8))
    ∧ (after .leave s).sc.state = .leaving ∧ (after .leave s).paths.clearNotice = .notGiven ∧ status (after .leave s) = some .accepted
    ∧ slotOf (after .leave s) 1 = some (.queued (yielding none)) ∧ slotOf (after .leave s) 2 = some (.inFlight claim .cancel)
    ∧ ownershipOf (after .leave s) 3 = some unknown ∧ ((after .leave s).entry? 4).map (fun e => e.takeoverTimer) = some none
    ∧ kinds (after .leave s) = [.station .leaving .leave, .claimOutcome .cancelled]
    ∧ (after .leave (ask (active []))).paths.clearNotice = .handed
    ∧ (after .leave (ask (station .listening []))).sc.state = .detached ∧ (after .leave (ask (station .muted []))).sc.state = .detached
    ∧ (after .leave (ask (station .listening []))).lc.tx = .off :=
  ⟨serves_working rfl rfl, by decide +kernel⟩

/-- The end of LEAVING: the notice judged, taken, and the outcome of a LEAVING and of an ACTIVE PRESENCE. -/
theorem test_leaving :
    let s := station .leaving [entryOf dHome unknown .none]
    let handed := { s with paths := { s.paths with clearNotice := .handed } }
    let out := fun (st : PresenceStatus) => { s with
      sc := { s.sc with presence := .inFlight st (some .leaving), leaveTag := some 4#8 }, paths := { s.paths with presenceReport := some .sent } }
    s.judgeSlots.paths.clearNotice = .handed ∧ handed.judgeSlots = handed ∧ (after .slotsClearNotice handed).sc.presence = .queued .leaving
    ∧ (after .presenceOutcome (out .leaving)).sc.state = .detached ∧ (after .presenceOutcome (out .active)).sc.presence = .queued .leaving
    ∧ (after .presenceOutcome (out .active)).sc.state = .leaving
    ∧ kinds (after .presenceOutcome (out .leaving)) = [.station .detached .leaveDone] := by decide

/-- A MUTED report and a duplicate report in a state that acts on it and in one that does not, with an entry of each ownership state. -/
theorem test_muteAndFault :
    let es := [entryOf dHome .own (.queued publish), { entryOf dSpare .yielding (.queued (yielding none)) with pendingTag := some 4#8 },
      entryOf dUrgent (.claiming (.orphaned 9#8 1#4) true) .none, entryOf dListen foreign9 .none]
    let report := fun (s : State) => { s with paths := { s.paths with mutedReport := true, duplicates := 1 } }
    (report (active es)).paths.mutedReport = true ∧ (report (active es)).paths.duplicates = 0 + 1
    ∧ (after .mutedReport (report (active es))).sc.state = .muted ∧ (after .mutedReport (report (active es))).sc.muteTimer = some 100
    ∧ kinds (after .mutedReport (report (active es))) = [.station .muted .lineFailure, .ownershipLost .muted, .ownershipLost .muted,
        .releaseOutcome .unannounced, .claimOutcome .failed, .ownerChanged .orphaned]
    ∧ (after .mutedReport (report (station .listening es))).sc.state = .listening
    ∧ (after .duplicate (report (active es))).sc.state = .faulted ∧ (after .duplicate (report (station .muted es))).sc.state = .faulted
    ∧ (after .duplicate (report (active es))).lc.view = none ∧ ownershipOf (after .duplicate (report (active es))) 1 = some unknown
    ∧ ownershipOf (after .duplicate (report (active es))) 3 = some orphan9
    ∧ (after .duplicate (report (station .detached es))).sc.state = .detached := by decide +kernel

theorem test_lineRestart :
    let es := [entryOf dHome .own (.queued publish), { entryOf dSpare .yielding (.queued (yielding none)) with pendingTag := some 4#8 },
      entryOf dUrgent claiming .none, entryOf dListen foreign9 .none]
    let s := working (request 13#8 0#16 0#8 1#8) (active es)
    s.serves .restart (requestOf (request 13#8 0#16 0#8 1#8)) ∧ (requestOf (request 13#8 0#16 0#8 1#8)).first = 1#8
    ∧ (after .restartLine s).sc.state = .listening ∧ (after .restartLine s).ts.routine = [.presence]
    ∧ (after .restartLine s).od.entries.all (fun e => decide (e.ownership = unknown ∧ e.slot = .none ∧ e.freshness = .stale)) = true
    ∧ kinds (after .restartLine s) = [.station .listening .restartLine, .ownershipLost .restart, .ownershipLost .restart, .releaseOutcome .unannounced,
        .claimOutcome .cancelled] :=
  ⟨serves_working rfl rfl, by decide, by decide, by decide, by decide, by decide⟩

/-- The end of LISTENING with an entry for each join action, and the presence timer with a free and a busy record. -/
theorem test_joinListen :
    let es := [entryOf dHome foreign9 .none, entryOf dSpare unknown .none, { entryOf dListen unknown .none with freshness := .stale },
      entryOf dHome (.consumer (.foreign 9#8 0#4 true)) .none]
    let s := { station .listening es with
      sc := { (station .listening es).sc with joinTimer := some 0 }
      pm := ⟨(station .listening es).pm.rows.set 8 ⟨true, none, 30, some 90⟩⟩ }
    let late := fun p => { active [] with sc := { (active []).sc with presenceTimer := some 0, presence := p } }
    s.sc.joinTimer = some 0 ∧ s.rowIs 9 ⟨true, none, 30, some 90⟩ ∧ s.rowIs 31 ⟨false, none, 30, none⟩
    ∧ (after (.joinListenExpiry true) s).ts.routine = [.presence, .entry 3] ∧ (after (.joinListenExpiry false) s).ts.routine = [.entry 3, .presence]
    ∧ slotOf (after (.joinListenExpiry true) s) 1 = some (.queued claim)
    ∧ ((after (.joinListenExpiry true) s).entry? 2).map (fun e => e.takeoverTimer) = some (some 40)
    ∧ slotOf (after (.joinListenExpiry true) s) 4 = some .none ∧ (after (.joinListenExpiry true) s).sc.state = .active
    ∧ s.sweepRow 9 = s ∧ ({ s with pm := State.reset.pm }.sweepRow 9).paths.notices = [⟨9#8, .absent⟩]
    ∧ ownershipOf ({ s with pm := State.reset.pm }.sweepRow 9).noticesTaken 1 = some orphan9
    ∧ (after .presenceTimerExpiry (late .none)).ts.routine = [.presence] ∧ (after .presenceTimerExpiry (late (.inFlight .active none))).ts.routine = []
    ∧ (after .presenceTimerExpiry (late .none)).sc.presenceTimer = some 30
    ∧ after (.joinListenExpiry true) (station .listening es) = station .listening es ∧ after .presenceTimerExpiry (active es) = active es :=
  ⟨by decide, ⟨by decide, by decide⟩, ⟨by decide, by decide⟩, by decide +kernel⟩

/-- A notice that waits at the end of LISTENING is taken before ACTIVE: its entry is orphaned, and a HOME entry then claims at the join actions. -/
theorem test_waitingNotice :
    let s := { station .listening [entryOf dHome (.consumer (.foreign 9#8 0#4 true)) .none] with
      sc := { (station .listening []).sc with joinTimer := some 0 }
      pm := ⟨(station .listening []).pm.rows.set 8 ⟨true, none, 30, some 90⟩⟩
      paths := { (station .listening []).paths with notices := [⟨9#8, .restarted⟩] } }
    (after (.joinListenExpiry true) s).paths.notices = [] ∧ slotOf (after (.joinListenExpiry true) s) 1 = some (.queued claim)
    ∧ kinds (after (.joinListenExpiry true) s) = [.ownerChanged .orphaned, .station .active .listenDone] := by decide +kernel

/-- A station whose ROUTINE queue holds n references of entry 1 (a queue to fill, not one a run reaches). -/
def routineOf (n : Nat) (p : Presence) : State := { active [entryOf dHome unknown .none] with
  ts := ⟨[], List.replicate n (.entry 1), decide (12 ≤ n)⟩
  sc := { (active []).sc with presence := p } }

theorem test_presence : ((routineOf 15 .none).requestPresence .active).ts.routine.length = 16 ∧ ((routineOf 16 .none).requestPresence .active).sc.presence = .owed .active
    ∧ ((routineOf 1 (.queued .joining)).requestPresence .active).sc.presence = .queued .active
    ∧ ((routineOf 16 (.owed .joining)).requestPresence .active).sc.presence = .owed .active
    ∧ ((routineOf 1 (.inFlight .active none)).requestPresence .leaving).sc.presence = .inFlight .active (some .leaving)
    ∧ (routineOf 1 (.queued .joining)).dropPresence.sc.presence = .none ∧ (routineOf 1 (.owed .joining)).dropPresence.ts = (routineOf 1 .none).ts := by decide

/-! ## The configuration image -/

/-- An image of station 5 with one HOME entry, object 300, auto-join clear; bytes before its check. -/
def imageBody (format count station rate period role repeated : Byte) : List Byte :=
  [format, station, rate, period, 20#8, 0#8, 5#8, 1#8, count, 0#8, 0#8, 0#8, 0#8, 0#8, 1#8, 0#8, 0#8,
    1#8, 0x2C#8, role, 1#8, 0#8, 4#8, 0#8, 20#8, 2#8, 0#8] ++ (if count = 2#8 then [1#8, repeated, 3#8, 0#8, 0#8, 4#8, 0#8, 20#8, 2#8, 0#8] else [])
def sealed (body : List Byte) : List Byte := body ++ [highByte (crc16 body), lowByte (crc16 body)]
def good : List Byte := sealed (imageBody 1#8 1#8 5#8 1#8 3#8 1#8 0#8)
def verdict (bytes : List Byte) : Option (FaultCode × Nat) :=
  match (Memory.writeAll [] 0 bytes).validate with
  | .ok _ => none
  | .error f => some f

/-- Each check in turn, at the edges of the count, the station number, the rate and the period; a repeated id at index 2. -/
theorem test_validation : verdict good = none
    ∧ verdict (sealed (imageBody 2#8 0#8 5#8 1#8 3#8 1#8 0#8)) = some (.badFormat, 0) ∧ verdict (sealed (imageBody 1#8 0#8 5#8 1#8 3#8 1#8 0#8)) = some (.badCount, 0)
    ∧ verdict (sealed (imageBody 1#8 65#8 5#8 1#8 3#8 1#8 0#8)) = some (.badCount, 0) ∧ verdict (good.set 26 1#8) = some (.badCheck, 0)
    ∧ verdict (sealed (imageBody 1#8 1#8 0#8 1#8 3#8 1#8 0#8)) = some (.badStation, 0) ∧ verdict (sealed (imageBody 1#8 1#8 32#8 1#8 3#8 1#8 0#8)) = some (.badStation, 0)
    ∧ verdict (sealed (imageBody 1#8 1#8 31#8 0x83#8 200#8 1#8 0#8)) = none ∧ verdict (sealed (imageBody 1#8 1#8 5#8 4#8 3#8 1#8 0#8)) = some (.badRate, 0)
    ∧ verdict (sealed (imageBody 1#8 1#8 5#8 1#8 1#8 1#8 0#8)) = some (.badTiming, 0) ∧ verdict (sealed (imageBody 1#8 1#8 5#8 1#8 201#8 1#8 0#8)) = some (.badTiming, 0)
    ∧ verdict (sealed (imageBody 1#8 1#8 5#8 1#8 3#8 4#8 0#8)) = some (.badEntry, 1)
    ∧ verdict (sealed (imageBody 1#8 2#8 5#8 1#8 3#8 1#8 0x2C#8)) = some (.duplicateObject, 2)
    ∧ verdict (sealed (imageBody 1#8 2#8 5#8 1#8 3#8 1#8 0x2D#8)) = none := by decide +kernel

/-- A declaration in range, with its fields, and one out of range. -/
theorem test_declaration : (Memory.writeAll [] 0 good).declAt 17 = some ⟨300#12, .home, 0#4, false, .routine, .none, 4, 20, 2, 0⟩
    ∧ (Memory.writeAll [] 0 good).declAt 0 = none ∧ (Memory.writeAll [] 0 good).declAt 17 = [dHome].head?.map fun d => { d with notify := .none } := by
  decide +kernel

/-- The read of the memory: part 1 good, with a bad format and with a bad count, part 2, a failed attempt before and at the third, and the wait. -/
theorem test_memoryRead :
    let part1 := fun bytes => after (.readHeader (bytes.take 17)) State.reset
    let reading := fun step n => { State.reset with il := { State.reset.il with phase := .reading step n } }
    (good.take 17).length = 17 ∧ (part1 good).il.phase = .reading .remainder 0 ∧ (good.drop 17).length = 10 * ((part1 good).il.staging.read 8).toNat + 2
    ∧ (part1 (good.set 0 2#8)).il.fault = .badFormat ∧ (part1 (good.set 8 0#8)).il.fault = .badCount ∧ (part1 (good.set 8 65#8)).il.fault = .badCount
    ∧ (part1 (good.set 8 64#8)).il.phase = .reading .remainder 0
    ∧ (after (.readRemainder (good.drop 17)) (part1 good)).sc.state = .detached
    ∧ (after .attemptFailed (reading .header 1)).il.phase = .reading (.wait 10) 2 ∧ (after .attemptFailed (reading .remainder 2)).il.fault = .noMemory
    ∧ (after .attemptWaitExpiry (reading (.wait 0) 2)).il.phase = .reading .header 2
    ∧ Memory.wf [(3, 1#8)] = true ∧ Memory.writeAll [(3, 1#8)] 2 [7#8, 0#8] = [(2, 7#8)] := by decide +kernel

/-- The link in part 1, part 2, the wait and LISTENING, and with RST_N low. -/
theorem test_link :
    let reading := fun step failed => { State.reset with il := { State.reset.il with phase := .reading step failed, staging := Memory.writeAll [] 0 good } }
    State.reset.link = [.start, .device 0x56#7 false, .address 0#8, .address 0#8, .start, .device 0x56#7 true]
      ++ List.replicate 16 (.data true) ++ [.data false, .stop]
    ∧ (reading .remainder 0).link = [.start, .device 0x56#7 false, .address 0#8, .address 17#8, .start, .device 0x56#7 true]
      ++ List.replicate 11 (.data true) ++ [.data false, .stop]
    ∧ (reading (.wait 10) 1).link = [] ∧ (station .listening []).link = [] ∧ { State.reset with rstLow := true }.link = [] := by decide +kernel

/-- LOAD: the edges of the length and of the buffer, and FINISH of a good and of a damaged image. -/
theorem test_load :
    let ask := fun (at' : BitVec 16) (length first : Byte) (s : State) => working (request 14#8 at' length first ++ [7#8]) s
    let s := station .unconfigured []
    let holding := fun bytes => { s with il := { s.il with staging := Memory.writeAll [] 0 bytes, phase := .awaitingLoad } }
    (ask 658#16 1#8 0#8 s).serves .load (requestOf (request 14#8 658#16 1#8 0#8 ++ [7#8]))
    ∧ status (after .load (ask 0#16 1#8 0#8 (active []))) = some .wrongState
    ∧ status (after .load (ask 0#16 33#8 0#8 s)) = some .length ∧ status (after .load (ask 0#16 0#8 0#8 s)) = some .badRequest
    ∧ status (after .load (ask 658#16 2#8 0#8 s)) = some .length ∧ status (after .load (ask 627#16 32#8 0#8 s)) = some .ok
    ∧ (after .load (ask 658#16 1#8 0#8 s)).il.staging = [(658, 7#8)]
    ∧ status (after .loadFinish (ask 0#16 0#8 1#8 (holding good))) = some .ok ∧ (after .loadFinish (ask 0#16 0#8 1#8 (holding good))).sc.state = .detached
    ∧ status (after .loadFinish (ask 0#16 1#8 1#8 (holding good))) = some .imageFault
    ∧ (after .loadFinish (ask 0#16 1#8 1#8 (holding good))).il.fault = .badFormat :=
  ⟨serves_working rfl rfl, by decide +kernel⟩

theorem ok_of_toOption {α ε : Type} {x : Except ε α} {a : α} (h : x.toOption = some a) : x = .ok a := by
  cases x with
  | error e => cases h
  | ok b => cases h; rfl

/-- The image of the buffer is the one its validation gives, with auto-join clear and set. -/
theorem test_installation :
    let held := fun bytes => { State.reset with il := { State.reset.il with staging := Memory.writeAll [] 0 bytes } }
    (∃ decls, (held good).il.staging.validate = .ok ((held good).il.staging.image decls))
    ∧ ((held good).validated 0#8).sc.number = some 5#8 ∧ ((held good).validated 0#8).od.entries.length = 1
    ∧ ((held (sealed (imageBody 1#8 1#8 5#8 0x81#8 3#8 1#8 0#8))).validated 0#8).sc.state = .listening
    ∧ ((held (good.set 0 2#8)).validated 0#8).sc.state = .unconfigured :=
  ⟨⟨[{ dHome with notify := .none }], ok_of_toOption (by decide +kernel)⟩, by decide +kernel, by decide +kernel, by decide +kernel, by decide +kernel⟩

/-! ## The line -/

def held (attempt : Nat) : Held := ⟨⟨3#4, 0#4, 5#8, 300#12, 0#4, 0#8, 0#8, []⟩, .routine, .entry 1, attempt⟩
def lineIn (tx : TxState) (abandons : Nat) (recovery : Bool) : State := { active [] with lc := { (active []).lc with tx := tx, abandons := abandons, recovery := recovery } }
def busyLine (s : State) : State := { s with lc := { s.lc with view := some .busy } }

/-- The view; the URGENT head; the ROUTINE head, an entry and the PRESENCE, at 59 and at 60 bit times; and nothing started on a BUSY line, without a
view, outside IDLE and from empty queues. -/
theorem test_take :
    let busy := busyLine (active [])
    let urgent := { active [entryOf dHome claiming (.queued claim)] with ts := ⟨[1], [], false⟩ }
    let routine := { active [entryOf dHome .own (.queued publish)] with ts := ⟨[], [.entry 1], false⟩ }
    let presence := { active [] with ts := ⟨[], [.presence], false⟩, sc := { (active []).sc with presence := .queued .active } }
    (after .lineQuiet busy).lc.view = some .quiet ∧ (after .lineBusy (active [])).lc.receiving = true
    ∧ urgent.entry? 1 = some (entryOf dHome claiming (.queued claim)) ∧ slotOf (after (.take 0) urgent) 1 = some (.inFlight claim .none)
    ∧ after (.take 59) routine = routine ∧ slotOf (after (.take 60) routine) 1 = some (.inFlight publish .none)
    ∧ after (.take 59) presence = presence ∧ (after (.take 60) presence).sc.presence = .inFlight .active none
    ∧ (after (.take 60) presence).lc.tx = .transmitting ⟨⟨5#4, 0#4, 5#8, 9#12, 2#4, 3#8, 0#8, []⟩, .routine, .presence, 1⟩
    ∧ [(.idle, some .busy), (.idle, none), (.off, some .quiet), (.halted, some .quiet), (.transmitting (held 1), some .quiet),
        (.jamming (held 1), some .quiet), (.retryWait (held 2) 1, some .quiet)].all (fun (p : TxState × Option LineView) =>
          let s := { urgent with lc := { urgent.lc with tx := p.1, view := p.2 } }
          decide (after (.take 60) s = s)) = true
    ∧ after (.take 60) (active []) = active [] ∧ after .lineQuiet (active []) = active [] ∧ after .lineBusy busy = busy := by decide +kernel

/-- The retry at the edge of its gap, the sent outcome with and without recovery, a collision and an equal level, the jam's end after the 7th
and the 8th attempt, and the second and third abandonment in a row. The draw is a free value. Then the commands outside their states, and the line pins
in the first and the last bit time of a telegram (0 and 1), in the jam and while idle. -/
theorem test_attempt :
    (lineIn (.retryWait (held 2) 1) 0 false).lc.tx = .retryWait (held 2) 1
    ∧ after (.retryAttempt 79) (lineIn (.retryWait (held 2) 1) 0 false) = lineIn (.retryWait (held 2) 1) 0 false
    ∧ (after (.retryAttempt 80) (lineIn (.retryWait (held 2) 1) 0 false)).lc.tx = .transmitting (held 2)
    ∧ (after .sent (lineIn (.transmitting (held 1)) 2 false)).lc.abandons = 0 ∧ kinds (after .sent (lineIn (.transmitting (held 1)) 2 true)) = [.line .recovered]
    ∧ (held 1).telegram.levels[0]? = some false ∧ (held 1).telegram.levels[87]? = some true
    ∧ after (.collision 0 false) (lineIn (.transmitting (held 1)) 0 false) = lineIn (.transmitting (held 1)) 0 false
    ∧ (after (.collision 87 false) (lineIn (.transmitting (held 1)) 0 false)).lc.tx = .jamming (held 1)
    ∧ (held 7).attempt < 8 ∧ (after .jamEnd (lineIn (.jamming (held 7)) 0 false)).draws = 1
    ∧ 8 ≤ (held 8).attempt ∧ (after .jamEnd (lineIn (.jamming (held 8)) 1 false)).lc.tx = .idle
    ∧ (after .jamEnd (lineIn (.jamming (held 8)) 2 false)).lc.tx = .halted ∧ kinds (after .jamEnd (lineIn (.jamming (held 8)) 2 false)) = [.line .muted]
    ∧ (after .jamEnd (lineIn (.jamming (held 8)) 2 false)).paths.mutedReport = true
    ∧ after (.retryAttempt 80) (busyLine (lineIn (.retryWait (held 2) 1) 0 false)) = busyLine (lineIn (.retryWait (held 2) 1) 0 false)
    ∧ [.retryAttempt 80, .sent, .collision 0 true, .jamEnd].all (fun c => decide (after c (active []) = active [])) = true
    ∧ (lineIn (.transmitting (held 1)) 0 false).txen = true ∧ (lineIn (.transmitting (held 1)) 0 false).txd 0 = false
    ∧ (lineIn (.transmitting (held 1)) 0 false).txd 87 = true ∧ (lineIn (.jamming (held 1)) 0 false).txen = true
    ∧ (lineIn (.jamming (held 1)) 0 false).txd 87 = false ∧ (active []).txen = false ∧ (active []).txd 0 = true := by decide +kernel

/-- A reception in progress. -/
def receiving : State := { active [] with lc := { (active []).lc with view := some .busy, receiving := true } }
def telegram9 : Telegram := publishOf9 3#8 2#8

/-- A telegram sent and received; a gap of 1 and of 11 bit times, a bad stop bit, too few bytes, a wrong check. -/
theorem test_reception : telegram9.payload.length = telegram9.length.toNat
    ∧ (after (.reception (telegram9.levels ++ List.replicate 12 true)) receiving).paths.toTf = [telegram9]
    ∧ [1, 11].all (fun k => decide ((after (.reception (telegram9.levels ++ List.replicate k true ++ [false])) receiving).eu.counters.rxBad = 1#16)) = true
    ∧ (after (.reception (startSequence ++ [false] ++ List.replicate 8 true ++ [false])) receiving).eu.counters.rxBad = 1#16
    ∧ (after (.reception (startSequence ++ List.replicate 12 true)) receiving).eu.counters.rxBad = 1#16
    ∧ (after (.reception (startSequence ++ bytesLevels (telegram9.bytes.set 4 9#8) ++ List.replicate 12 true)) receiving).eu.counters.rxBad = 1#16
    ∧ (List.replicate 263 0#8).length ≤ 263 := by decide +kernel

/-! ## The Telegram Filter and the Peer Monitor -/

def delivered (t : Telegram) : State := { active [entryOf dSpare foreign9 .none] with
  paths := { (active []).paths with toTf := [t] }, tf := ⟨1#64 <<< 40, []⟩ }

/-- One telegram per check that fails it, the own number, and the four ways a good one goes. -/
theorem test_filter :
    [{ telegram9 with source := 0#8 }, { telegram9 with source := 32#8 }, { telegram9 with kind := 0#4 }, { telegram9 with kind := 6#4 },
      { telegram9 with objectId := 0#12 }, { telegram9 with objectId := 4095#12 }, { telegram9 with length := 33#8 },
      { telegram9 with kind := 3#4 }, { telegram9 with kind := 4#4 }, ⟨4#4, 0#4, 9#8, 301#12, 1#4, 3#8, 1#8, [32#8]⟩, ⟨5#4, 0#4, 9#8, 3#12, 4#4, 3#8, 0#8, []⟩,
      ⟨5#4, 0#4, 9#8, 3#12, 2#4, 1#8, 0#8, []⟩, ⟨5#4, 0#4, 9#8, 3#12, 2#4, 201#8, 0#8, []⟩].all (fun t =>
        decide ((after .deliveredTelegram (delivered t)).eu.counters.rxBad = 1#16)) = true
    ∧ (after .deliveredTelegram (delivered { telegram9 with source := 5#8 })).paths.duplicates = 1
    ∧ (after .deliveredTelegram (delivered telegram9)).paths.toOd = [telegram9] ∧ (after .deliveredTelegram (delivered telegram9)).paths.toPm = [telegram9]
    ∧ (after .deliveredTelegram (delivered { telegram9 with objectId := 40#12 })).paths.toRing = [{ telegram9 with objectId := 40#12 }]
    ∧ (after .deliveredTelegram (delivered { telegram9 with objectId := 1000#12 })).paths.toRing = []
    ∧ (after .deliveredTelegram (delivered { telegram9 with objectId := 1000#12 })).eu.counters.rxGood = 1#16
    ∧ (after .deliveredTelegram (delivered ⟨5#4, 0#4, 31#8, 0#12, 3#4, 200#8, 0#8, []⟩)).paths.toPm.length = 1 := by decide +kernel

/-- A telegram that passes the checks. -/
theorem test_passesChecks : telegram9.PassesChecks :=
  ⟨by decide, by decide, by decide, by decide, by decide, ⟨fun h => absurd h (by decide), fun h => absurd h (by decide)⟩⟩

def heardBy (row : PeerRow) (t : Telegram) : State := { active [] with
  pm := ⟨(active []).pm.rows.set 8 row⟩, paths := { (active []).paths with toPm := [t] } }
def rowNine (s : State) : Option PeerRow := s.pm.rows[8]?
def presence9 (status : BitVec 4) (epoch : BitVec 12) : Telegram := ⟨5#4, 0#4, 9#8, epoch, status, 4#8, 0#8, []⟩

theorem test_peerRow :
    let row : PeerRow := ⟨false, some 2#12, 30, none⟩
    (heardBy row telegram9).rowIs 9 row ∧ rowNine (after .heard (heardBy row telegram9)) = some ⟨true, some 2#12, 30, some 90⟩
    ∧ kinds (after .heard (heardBy row telegram9)) = [.peer .joined] ∧ kinds (after .heard (heardBy { row with present := true } telegram9)) = []
    ∧ rowNine (after .presenceHeard (heardBy row (presence9 1#4 2#12))) = some ⟨true, some 2#12, 40, some 120⟩
    ∧ kinds (after .presenceHeard (heardBy row (presence9 2#4 3#12))) = [.peer .joined, .peer .restarted]
    ∧ (after .presenceHeard (heardBy row (presence9 2#4 3#12))).paths.notices = [⟨9#8, .restarted⟩]
    ∧ kinds (after .presenceHeard (heardBy { row with epoch := none } (presence9 2#4 3#12))) = [.peer .joined]
    ∧ rowNine (after .leavingPresenceHeard (heardBy row (presence9 3#4 3#12))) = some ⟨false, some 3#12, 40, none⟩
    ∧ kinds (after .leavingPresenceHeard (heardBy row (presence9 3#4 3#12))) = [.peer .leaving]
    ∧ rowNine (after (.silenceDeadlineExpiry 9) (heardBy ⟨true, none, 30, some 0⟩ telegram9)) = some ⟨false, none, 30, none⟩
    ∧ (after (.silenceDeadlineExpiry 9) (heardBy ⟨true, none, 30, some 0⟩ telegram9)).paths.notices = [⟨9#8, .absent⟩]
    ∧ [0, 8, 9, 32].all (fun n => decide (after (.silenceDeadlineExpiry n) (heardBy ⟨true, none, 30, some 1⟩ telegram9)
        = heardBy ⟨true, none, 30, some 1⟩ telegram9)) = true :=
  ⟨⟨by decide, by decide⟩, by decide +kernel⟩

/-! ## The Object Directory -/

theorem test_notice :
    let s := { active [entryOf dSpare foreign9 .none, entryOf dHome (.claiming (.foreign 9#8 1#4 false) false) .none, entryOf dListen orphan9 .none] with
      paths := { (active []).paths with notices := [⟨9#8, .absent⟩] } }
    s.paths.notices = [⟨9#8, .absent⟩] ∧ ownershipOf (after .peerNotice s) 1 = some orphan9 ∧ kinds (after .peerNotice s) = [.ownerChanged .orphaned]
    ∧ ((after .peerNotice s).entry? 1).map (fun e => e.takeoverTimer) = some (some 40)
    ∧ ownershipOf (after .peerNotice s) 2 = some (.claiming (.orphaned 9#8 1#4) true) ∧ ownershipOf (after .peerNotice s) 3 = some orphan9 := by decide

theorem routed_one {s : State} {t : Telegram} {kind : TelegramKind} {i : Nat} {e : Entry} (h : s.rstLow = false) (hk : t.kindOf = some kind)
    (hc : s.carries t.objectId.toNat i e) : (routedTo t s).routed kind t [] i e := ⟨h, rfl, hk, hc⟩

/-- A PUBLISH at a consumer entry: a first owner, the recorded one at the edges of the version order and of the length, a better and a worse key. -/
theorem test_publishAtConsumer :
    let s := fun ow => active [entryOf dSpare ow .none]
    let got := fun ow t => after .publishReceived (routedTo t (s ow))
    (routedTo (publishOf9 8#8 4#8) (s foreign9)).routed .publish (publishOf9 8#8 4#8) [] 1 (entryOf dSpare foreign9 .none)
    ∧ ownershipOf (got unknown (publishOf9 200#8 4#8)) 1 = some foreign9 ∧ kinds (got unknown (publishOf9 200#8 4#8)) = [.ownerChanged .newOwner, .arrival]
    ∧ kinds (got orphan9 (publishOf9 200#8 5#8)) = [.ownerChanged .newOwner, .valueRefused]
    ∧ kinds (got foreign9 (publishOf9 8#8 5#8)) = [.valueRefused]
    ∧ [(7#8, 0), (8#8, 1), (134#8, 1), (135#8, 0), (6#8, 0)].all (fun p => decide ((kinds (got foreign9 (publishOf9 p.1 4#8))).length = p.2)) = true
    ∧ [(7#8, 0#16), (134#8, 0#16), (135#8, 1#16), (6#8, 1#16)].all (fun p => decide ((got foreign9 (publishOf9 p.1 4#8)).eu.counters.oldVersion = p.2)) = true
    ∧ kinds (got (.consumer (.foreign 9#8 1#4 true)) (publishOf9 6#8 4#8)) = [.arrival]
    ∧ kinds (got (.consumer (.foreign 10#8 1#4 false)) (publishOf9 6#8 4#8)) = [.ownerChanged .newOwner, .arrival]
    ∧ kinds (got (.consumer (.foreign 10#8 1#4 false)) (publishOf9 6#8 5#8)) = [.ownerChanged .newOwner, .valueRefused]
    ∧ ownershipOf (got (.consumer (.foreign 8#8 1#4 false)) (publishOf9 6#8 4#8)) 1 = some (.consumer (.foreign 8#8 1#4 false)) :=
  ⟨routed_one rfl rfl ⟨by decide, by decide⟩, by decide +kernel⟩

/-- The records of an acceptance with a QUERY pending, under each notify, from STALE, and as a same-version refresh. -/
theorem test_acceptance_records :
    let s := fun (d : Decl) (sl : Slot) => { active [{ entryOf d foreign9 sl with freshness := .stale }] with ts := ⟨[], [.entry 1], false⟩ }
    let got := fun d sl same => (s d sl).acceptValue 1 (publishOf9 8#8 1#8) same [(.ownerChanged .newOwner, 0#8)]
    kinds (got dHome (.queued query) true) = [.ownerChanged .newOwner, .fresh, .arrival] ∧ slotOf (got dHome (.queued query) true) 1 = some .none
    ∧ kinds (got dSpare (.inFlight query .none) true) = [.ownerChanged .newOwner, .fresh]
    ∧ slotOf (got dSpare (.inFlight query .none) true) 1 = some (.inFlight query .none)
    ∧ kinds (got dSpare .none false) = [.ownerChanged .newOwner, .fresh, .arrival]
    ∧ kinds (got dListen (.queued query) false) = [.ownerChanged .newOwner] ∧ query.kind = .query := by decide

/-- A PUBLISH at a claimant, HOME and SPARE, at an owner with the better and the worse key, and at a YIELDING entry. -/
theorem test_publishAtOwnStates :
    let dSpareHome : Decl := { dSpare with role := .home, rank := 0#4, takeover := false }
    let got := fun (e : Entry) (t : Telegram) => after .publishReceived (routedTo t (active [e]))
    ownershipOf (got (entryOf dSpareHome claiming .none) (publishOf9 1#8 1#8)) 1 = some claiming
    ∧ kinds (got (entryOf dSpare claiming (.inFlight claim .none)) (publishOf9 1#8 1#8)) = [.claimOutcome .lost, .ownerChanged .newOwner, .arrival]
    ∧ slotOf (got (entryOf dSpare claiming (.inFlight claim .none)) (publishOf9 1#8 1#8)) 1 = some (.inFlight claim .cancel)
    ∧ kinds (got (entryOf dSpareHome claiming .none) { publishOf9 1#8 5#8 with rank := 0#4 }) = [.claimOutcome .lost, .ownerChanged .newOwner, .valueRefused]
    ∧ kinds (got (entryOf dSpare .own .none) (publishOf9 1#8 1#8)) = [.ownershipLost .conflict, .ownerChanged .newOwner, .arrival]
    ∧ kinds (got (entryOf dSpare .own .none) (publishOf9 1#8 5#8)) = [.ownershipLost .conflict, .ownerChanged .newOwner, .valueRefused]
    ∧ slotOf (got (entryOf dSpareHome .own .none) (publishOf9 1#8 1#8)) 1 = some (.queued ⟨.publish, .urgent, false, true, none⟩)
    ∧ ownershipOf (got (entryOf dSpare .yielding (.queued (yielding none))) (publishOf9 1#8 1#8)) 1 = some .yielding := by decide

def claimOf9 (rank : BitVec 4) : Telegram := ⟨3#4, 0#4, 9#8, 301#12, rank, 0#8, 0#8, []⟩

theorem test_claimReceived :
    let got := fun (s : State) (t : Telegram) => after .claimReceived (routedTo t s)
    let waiting : Entry := { entryOf dSpare orphan9 .none with takeoverTimer := some 1 }
    (routedTo (claimOf9 1#4) (active [waiting])).routed .claim (claimOf9 1#4) [] 1 waiting
    ∧ ((got (active [waiting]) (claimOf9 1#4)).entry? 1).map (fun e => e.takeoverTimer) = some (some 40)
    ∧ ((got (active [waiting]) (claimOf9 2#4)).entry? 1).map (fun e => e.takeoverTimer) = some (some 1)
    ∧ ownershipOf (got (active [entryOf dSpare claiming .none]) (claimOf9 2#4)) 1 = some claiming
    ∧ kinds (got (active [entryOf dSpare claiming .none]) (claimOf9 1#4)) = [.claimOutcome .lost]
    ∧ slotOf (got (active [entryOf dSpare .own .none]) (claimOf9 0#4)) 1 = some (.queued (yielding (some 9#8)))
    ∧ slotOf (got (active [entryOf dSpare .own (.inFlight publish .none)]) (claimOf9 0#4)) 1 = some (.inFlight publish (.yield (some 9#8)))
    ∧ slotOf (got (active [entryOf dSpare .own .none]) (claimOf9 1#4)) 1 = some (.queued ⟨.publish, .urgent, false, true, none⟩)
    ∧ slotOf (got (active [entryOf dSpare .own (.waiting publish)]) (claimOf9 1#4)) 1 = some (.queued ⟨.publish, .urgent, false, true, none⟩)
    ∧ ownershipOf (got (active [entryOf dSpare .yielding (.queued (yielding none))]) (claimOf9 1#4)) 1 = some .yielding
    ∧ slotOf (got (station .leaving [entryOf dSpare .own .none]) (claimOf9 1#4)) 1 = some .none :=
  ⟨routed_one rfl rfl ⟨by decide, by decide⟩, by decide +kernel⟩

def yieldOf9 (successor : Option Byte) : Telegram :=
  ⟨4#4, 0#4, 9#8, 301#12, 1#4, 3#8, if successor.isSome then 1#8 else 0#8, successor.toList⟩

/-- A YIELD with a valid successor, with none, with the own number and with its source, at each ownership state. -/
theorem test_yieldReceived :
    let got := fun ow sl n => after .yieldReceived (routedTo (yieldOf9 n) (active [entryOf dSpare ow sl]))
    (routedTo (yieldOf9 (some 7#8)) (active [entryOf dSpare foreign9 .none])).routed .yield (yieldOf9 (some 7#8)) [] 1 (entryOf dSpare foreign9 .none)
    ∧ ownershipOf (got foreign9 .none (some 7#8)) 1 = some (.consumer (.foreign 7#8 0#4 true))
    ∧ [none, some 5#8, some 9#8].all (fun n => decide (ownershipOf (got foreign9 .none n) 1 = some orphan9)) = true
    ∧ ownershipOf (got orphan9 .none (some 7#8)) 1 = some (.consumer (.foreign 7#8 0#4 true)) ∧ ownershipOf (got orphan9 .none none) 1 = some orphan9
    ∧ [unknown, .own, .yielding, .consumer (.foreign 8#8 1#4 false), .consumer (.orphaned 8#8 1#4)].all (fun ow =>
        decide (ownershipOf (got ow .none (some 7#8)) 1 = some ow)) = true
    ∧ kinds (got claiming .none (some 5#8)) = [.claimOutcome .won] ∧ ownershipOf (got claiming (.inFlight claim .cancel) (some 5#8)) 1 = some claiming
    ∧ ownershipOf (got (.claiming (.foreign 9#8 1#4 false) false) .none (some 7#8)) 1 = some (.claiming (.foreign 7#8 0#4 true) true)
    ∧ ownershipOf (got (.claiming (.foreign 9#8 1#4 false) false) .none none) 1 = some (.claiming (.orphaned 9#8 1#4) true)
    ∧ ownershipOf (got (.claiming (.orphaned 9#8 1#4) false) .none (some 7#8)) 1 = some (.claiming (.foreign 7#8 0#4 true) true)
    ∧ ownershipOf (got (.claiming (.foreign 9#8 1#4 false) false) .none (some 9#8)) 1 = some (.claiming (.orphaned 9#8 1#4) true)
    ∧ ownershipOf (got claiming .none (some 7#8)) 1 = some claiming :=
  ⟨routed_one rfl rfl ⟨by decide, by decide⟩, by decide +kernel⟩

def queryOf9 (flags : BitVec 4) (version : Byte) : Telegram := ⟨2#4, flags, 9#8, 301#12, 1#4, version, 0#8, []⟩

theorem test_queryReceived :
    let got := fun e t => after .queryReceived (routedTo t (active [e]))
    let answer : Outbound := { publish with answer := true }
    (routedTo (queryOf9 0#4 7#8) (active [entryOf dSpare .own .none])).routed .query (queryOf9 0#4 7#8) [] 1 (entryOf dSpare .own .none)
    ∧ slotOf (got (entryOf dSpare .own .none) (queryOf9 0#4 7#8)) 1 = some .none
    ∧ slotOf (got (entryOf dSpare .own .none) (queryOf9 0#4 8#8)) 1 = some (.queued answer)
    ∧ slotOf (got (entryOf dSpare .own .none) (queryOf9 4#4 7#8)) 1 = some (.queued answer)
    ∧ slotOf (got { entryOf dSpare .own .none with spacingTimer := some 1 } (queryOf9 4#4 7#8)) 1 = some (.waiting answer)
    ∧ slotOf (got (entryOf dSpare .own (.queued publish)) (queryOf9 4#4 7#8)) 1 = some (.queued answer)
    ∧ slotOf (got (entryOf dSpare .own (.inFlight publish .none)) (queryOf9 4#4 7#8)) 1 = some (.inFlight publish .none)
    ∧ slotOf (got (entryOf dSpare foreign9 .none) (queryOf9 4#4 7#8)) 1 = some .none :=
  ⟨routed_one rfl rfl ⟨by decide, by decide⟩, by decide, by decide, by decide, by decide, by decide, by decide, by decide⟩

def reported (e : Entry) (outcome : TxOutcome) : State := { active [e] with paths := { (active []).paths with reports := [(1, outcome)] } }

/-- An outcome of each kind of telegram at each state and follow-up it can stand with. -/
theorem test_outcome :
    let got := fun ow sl outcome => after .outcomeReport (reported (entryOf dSpare ow sl) outcome)
    (reported (entryOf dSpare .own (.inFlight publish .none)) .sent).paths.reports = [(1, .sent)]
    ∧ ((got .own (.inFlight publish .none) .sent).entry? 1).map (fun e => (e.refreshTimer, e.spacingTimer)) = some (some 20, some 10)
    ∧ slotOf (got .own (.inFlight publish (.publish .routine)) .sent) 1 = some (.waiting publish)
    ∧ slotOf (got .own (.inFlight publish (.publish .routine)) .abandoned) 1 = some (.queued publish)
    ∧ slotOf (got .yielding (.inFlight publish (.yield none)) .sent) 1 = some (.queued (yielding none))
    ∧ slotOf (got foreign9 (.inFlight publish .none) .sent) 1 = some .none
    ∧ ((got claiming (.inFlight claim .none) .sent).entry? 1).map (fun e => e.windowTimer) = some (some 20)
    ∧ kinds (got claiming (.inFlight claim .none) .abandoned) = [.claimOutcome .failed] ∧ kinds (got claiming (.inFlight claim .cancel) .sent) = [.claimOutcome .cancelled]
    ∧ slotOf (got foreign9 (.inFlight claim .cancel) .sent) 1 = some .none
    ∧ slotOf (got .own (.inFlight claim (.publish .urgent)) .sent) 1 = some (.queued { publish with cls := .urgent })
    ∧ slotOf (got .yielding (.inFlight claim (.yield none)) .sent) 1 = some (.queued (yielding none))
    ∧ kinds (got .yielding (.inFlight (yielding (some 9#8)) .none) .abandoned) = [.ownershipLost .handback, .ownerChanged .newOwner]
    ∧ ownershipOf (got .yielding (.inFlight (yielding none) .none) .sent) 1 = some unknown ∧ slotOf (got unknown (.inFlight query .none) .abandoned) 1 = some .none
    ∧ slotOf (after .outcomeReport (reported (entryOf dHome orphan9 (.inFlight query .none)) .sent)) 1 = some (.queued claim) := by decide

/-- The freshness deadline under two notify settings, the spacing timer with a WAITING PUBLISH and with none. -/
theorem test_freshnessAndSpacing :
    let s := fun d => active [{ entryOf d foreign9 .none with freshTimer := some 0 }]
    let spaced := fun sl => active [{ entryOf dSpare .own sl with spacingTimer := some 0 }]
    kinds (after (.freshnessDeadlineExpiry 1) (s dSpare)) = [.stale] ∧ kinds (after (.freshnessDeadlineExpiry 1) (s dListen)) = []
    ∧ after (.freshnessDeadlineExpiry 1) (active [{ entryOf dSpare foreign9 .none with freshTimer := some 1 }])
        = active [{ entryOf dSpare foreign9 .none with freshTimer := some 1 }]
    ∧ slotOf (after (.spacingTimerExpiry 1) (spaced (.waiting publish))) 1 = some (.queued publish)
    ∧ slotOf (after (.spacingTimerExpiry 1) (spaced .none)) 1 = some .none
    ∧ after (.spacingTimerExpiry 1) (s dSpare) = s dSpare ∧ after (.freshnessDeadlineExpiry 2) (s dSpare) = s dSpare := by decide +kernel

theorem test_refresh :
    let s := fun d sl backlog => { active [{ entryOf d .own sl with refreshTimer := some 0 }] with ts := ⟨[], [], backlog⟩ }
    let refresh : Outbound := { publish with refresh := true }
    ((after (.refreshTimerExpiry 1) (s dSpare (.queued publish) false)).entry? 1).map (fun e => e.refreshTimer) = some (some 20)
    ∧ (after (.refreshTimerExpiry 1) (s dSpare .none true)).eu.counters.shed = 1#16
    ∧ slotOf (after (.refreshTimerExpiry 1) (s dUrgent .none true)) 1 = some (.queued { refresh with cls := .urgent })
    ∧ slotOf (after (.refreshTimerExpiry 1) (s dSpare .none false)) 1 = some (.queued refresh)
    ∧ [entryOf dSpare .own .none, { entryOf dSpare foreign9 .none with refreshTimer := some 0 }].all (fun e =>
        decide (after (.refreshTimerExpiry 1) (active [e]) = active [e])) = true := by decide +kernel

theorem test_windowAndTakeover :
    let window := active [{ entryOf dSpare claiming .none with windowTimer := some 0, version := some 255#8 }]
    let takeover := fun sl => active [{ entryOf dSpare orphan9 sl with takeoverTimer := some 0 }]
    kinds (after (.claimWindowExpiry 1) window) = [.claimOutcome .won] ∧ ((after (.claimWindowExpiry 1) window).entry? 1).map (fun e => e.version) = some (some 0#8)
    ∧ slotOf (after (.claimWindowExpiry 1) window) 1 = some (.queued { publish with cls := .urgent })
    ∧ slotOf (after (.takeoverTimerExpiry 1) (takeover .none)) 1 = some (.queued claim)
    ∧ slotOf (after (.takeoverTimerExpiry 1) (takeover (.inFlight claim .cancel))) 1 = some (.inFlight claim .none)
    ∧ ((after (.takeoverTimerExpiry 1) (takeover (.inFlight query .none))).entry? 1).map (fun e => e.takeoverTimer) = some (some 40)
    ∧ after (.claimWindowExpiry 1) (takeover .none) = takeover .none ∧ after (.takeoverTimerExpiry 1) window = window
    ∧ after (.takeoverTimerExpiry 1) (station .listening (takeover .none).od.entries) = station .listening (takeover .none).od.entries := by
  decide +kernel

theorem test_tick :
    let s := { active [{ entryOf dSpare foreign9 .none with freshTimer := some 1, spacingTimer := some 0 }] with eu := { (active []).eu with clock := 65535#16 } }
    s.rstLow = false ∧ (after .millisecondTick s).eu.clock = 0#16
    ∧ ((after .millisecondTick s).entry? 1).map (fun e => (e.freshTimer, e.spacingTimer, e.windowTimer)) = some (some 0, some 0, none) := by decide

/-- A claim's start with each kind of slot, the takeover logic by role, and a return to a prior state that has changed. -/
theorem test_claimStart :
    let s := fun d ow sl => active [entryOf d ow sl]
    [(Slot.none, Slot.queued claim), (.queued query, .queued claim), (.inFlight claim .cancel, .inFlight claim .none), (.inFlight query .none, .inFlight query .none)].all
      (fun p => decide (slotOf ((s dSpare foreign9 p.1).startClaim 1) 1 = some p.2)) = true
    ∧ slotOf ((s dHome orphan9 .none).takeoverLogic 1) 1 = some (.queued claim) ∧ (((s dSpare orphan9 .none).takeoverLogic 1).entry? 1).map (fun e => e.takeoverTimer) = some (some 40)
    ∧ (s dListen orphan9 .none).takeoverLogic 1 = s dListen orphan9 .none ∧ (s dUrgent orphan9 .none).takeoverLogic 1 = s dUrgent orphan9 .none
    ∧ (s dHome foreign9 .none).takeoverLogic 1 = s dHome foreign9 .none ∧ (station .muted [entryOf dHome orphan9 .none]).takeoverLogic 1 = station .muted [entryOf dHome orphan9 .none]
    ∧ (s dHome unknown .none).takeoverIfOrphaned 1 = s dHome unknown .none
    ∧ kinds ((s dSpare (.claiming (.orphaned 9#8 1#4) true) .none).returnToPrior 1 .failed) = [.claimOutcome .failed, .ownerChanged .orphaned]
    ∧ kinds ((s dSpare (.claiming (.foreign 9#8 1#4 false) true) .none).returnToPrior 1 .failed) = [.claimOutcome .failed, .ownerChanged .newOwner]
    ∧ kinds ((s dSpare claiming .none).returnToPrior 1 .failed) = [.claimOutcome .failed] := by decide

/-- Queues one short of full and full, and BACKLOG at its thresholds. -/
theorem test_append :
    let urgent := fun n => { active [entryOf dHome unknown .none] with ts := ⟨List.replicate n 1, [], false⟩ }
    let backlog := fun n on => { active [] with ts := ⟨[], List.replicate n (.entry 1), on⟩ }
    slotOf ((urgent 7).append 1 claim) 1 = some (.queued claim) ∧ slotOf ((urgent 8).append 1 claim) 1 = some (.owed claim) ∧ ((urgent 8).append 1 claim).od.urgentOwed = [1]
    ∧ slotOf ((routineOf 15 .none).append 1 query) 1 = some (.queued query) ∧ ((routineOf 16 .none).append 1 query).od.routineOwed = [1]
    ∧ kinds (backlog 12 false).judgeBacklog = [.backlog .entered] ∧ kinds (backlog 11 false).judgeBacklog = [] ∧ kinds (backlog 5 true).judgeBacklog = []
    ∧ kinds (backlog 4 true).judgeBacklog = [.backlog .cleared] := by decide

/-- Withdrawals from each place, and the offer of a freed place to the owed entries and to the owed PRESENCE. -/
theorem test_withdraw :
    let s := fun sl => { active [entryOf dSpare foreign9 sl, entryOf dHome foreign9 (.owed claim)] with
      ts := ⟨1 :: List.replicate 7 3, .entry 1 :: List.replicate 15 (.entry 3), true⟩, od := ⟨[entryOf dSpare foreign9 sl, entryOf dHome foreign9 (.owed claim)], [2], [2], some 20⟩ }
    (s .none).withdraw 1 = s .none ∧ (s (.inFlight query .none)).withdraw 1 = s (.inFlight query .none) ∧ slotOf ((s (.waiting publish)).withdraw 1) 1 = some .none
    ∧ slotOf ((s (.owed claim)).withdraw 1) 1 = some .none ∧ ((s (.queued claim)).withdraw 1).ts.urgent = List.replicate 7 3 ++ [2]
    ∧ ((s (.queued claim)).withdraw 1).od.urgentOwed = [] ∧ slotOf ((s (.queued claim)).withdraw 1) 2 = some (.queued claim)
    ∧ ((s (.queued query)).withdraw 1).ts.routine = List.replicate 15 (.entry 3) ++ [.entry 2]
    ∧ ({ s (.queued query) with sc := { (active []).sc with presence := .owed .active } }.withdraw 1).ts.routine = List.replicate 15 (.entry 3) ++ [.presence]
    ∧ (s .none).offerUrgent = s .none ∧ (s .none).offerRoutine = s .none ∧ (active []).offerRoutine = active [] := by decide

/-! ## The invariants: states that satisfy them and take a step -/

/-- A station in ACTIVE with an entry OWN and its PUBLISH queued, a claim in flight and a consumer with a QUERY queued. -/
def running : State := { active [entryOf dHome .own (.queued publish), entryOf dSpare claiming (.inFlight claim .none), entryOf dListen unknown (.queued query)] with
  ts := ⟨[], [.entry 1, .entry 3], false⟩, pending := [.take 60] }

theorem test_invariants : running.EventsInv ∧ running.QueuesInv ∧ running.lp.request.fits 40 ∧ running.il.staging.fits 659 ∧ running.od.entries.length ≤ 64
    ∧ (∀ e ∈ running.od.entries, e.FitsStation .active) ∧ [0, 1, 2, 3, 4].all (fun i => decide (running.references i = running.called i)) = true
    ∧ running.ts.routine.count .presence = running.sc.presence.calls ∧ step running = .next (after (.take 60) { running with pending := [] })
    ∧ [0, 1, 2, 3, 4].all (fun i => let t := after (.take 60) running; decide (t.references i = t.called i)) = true :=
  ⟨by decide, by decide, by decide, by decide, by decide, by decide, by decide, by decide, rfl, by decide⟩

/-- The premises of each invariant statement, in full. -/
theorem test_invariantPremises : running.BuffersInv ∧ running.TablesInv ∧ running.OwnershipInv :=
  ⟨⟨by decide, trivial, by decide, by decide, trivial⟩, ⟨by decide, by
      intro e he; simp [running, active, station] at he; rcases he with rfl | rfl | rfl <;> exact ⟨by and_intros <;> decide, by decide⟩, by decide, by decide, by decide, by decide, by decide, by decide⟩,
    ⟨by decide, by decide, by decide, by decide, by decide⟩⟩

/-- The premises of the buffers' invariant, with a response of 32 value bytes held in DONE. -/
theorem test_responsePremise :
    let full := { running with tf := ⟨0#64, [⟨1#12, 1#8, 1#8, List.replicate 32 1#8⟩]⟩ }
    let s := after .takeUnlisted (working (request 9#8 0#16 0#8 0#8) full)
    status s = some .ok ∧ s.BuffersInv := ⟨by decide, by decide, Nat.le_refl 32, by decide, by decide, trivial⟩

/-- The reference premise: an index beyond the entries is referenced nowhere. -/
theorem test_referencesPremise : running.ReferencesInv := by
  refine ⟨fun i => ?_, by decide⟩
  match i with
  | 0 | 1 | 2 | 3 => decide
  | n + 4 =>
    have h1 : running.called (n + 4) = (0, 0, 0, 0) := by
      show (match (running.od.entries[n + 3]? : Option Entry) with
        | none => ((0, 0, 0, 0) : Nat × Nat × Nat × Nat)
        | some e => e.slot.calls) = _
      have : running.od.entries[n + 3]? = none := List.getElem?_eq_none (by show 3 ≤ n + 3; omega)
      rw [this]
    rw [h1]
    show ([].count (n + 4), [Ref.entry 1, .entry 3].count (.entry (n + 4)), [].count (n + 4), [].count (n + 4)) = _
    have h2 : [Ref.entry 1, .entry 3].count (.entry (n + 4)) = 0 := by
      rw [List.count_eq_zero]; simp
    rw [h2]; rfl

end Sys2Proof.Tests
end

section
/-! PROOFS. A peer notice, and a CLAIM, at the entry they reach (R34, R37, R38, R39, R49, R50): an equation for each operation in each case it
distinguishes, and from these the statements O38 and O42. -/

namespace Sys2Proof.Machine

/-! ## The entries in index order, and the records posted at one -/

/-- Taking the entries in index order is folding over the indexes 1, 2, … (R1). -/
theorem State.eachEntry_eq_foldl (s : State) (f : State → Nat → State) :
    s.eachEntry f = ((List.range s.od.entries.length).map (· + 1)).foldl f s := by
  unfold State.eachEntry
  simp only [List.range'_eq_map_range, Nat.add_comm 1]

/-- A record of an entry carries its object id and the version it holds (R28). -/
theorem State.postEntry_eq_post {s : State} {i : Nat} {e : Entry} (h : s.entry? i = some e) (k : EventKind) (tag : Byte) :
    s.postEntry i k tag = s.post k e.decl.objectId tag e.version := State.withEntry_some h _

/-- A posting and the replacing of an entry commute: the one changes EU, the other OD. -/
theorem State.put_post (s : State) (i : Nat) (e : Entry) (k : EventKind) (id : BitVec 12) (tag : Byte) (v : Option Byte) :
    (s.post k id tag v).put i e = (s.put i e).post k id tag v := by
  by_cases hq : s.eu.queue.length < 32
  · rw [s.post_room k id tag v hq, (s.put i e).post_room k id tag v hq]
    rfl
  · rw [s.post_full k id tag v hq, (s.put i e).post_full k id tag v hq]
    rfl

/-! ## A notice at an entry -/

/-- Orphaning an entry: its new view, OWNER_CHANGED with the version it holds, the takeover logic (R50). -/
theorem State.orphanEntry_eq {s : State} {i : Nat} {e : Entry} (h : s.entry? i = some e) (view : View) :
    s.orphanEntry i view = ((s.put i { e with ownership := .consumer view.orphan }).post
      (.ownerChanged .orphaned) e.decl.objectId 0#8 e.version).takeoverLogic i := by
  unfold State.orphanEntry
  rw [State.modify_eq_put h, State.postEntry_eq_post (State.entry?_put_same h _)]

/-- Only a FOREIGN view is owned by a station. -/
theorem View.ownedBy_iff (v : View) (station : Byte) : v.ownedBy station = true ↔ ∃ rank any, v = .foreign station rank any := by
  cases v with
  | foreign owner rank any => simp [View.ownedBy]
  | unknown | orphaned _ _ => simp [View.ownedBy]

/-- A notice orphans a FOREIGN entry of the station (R50). -/
theorem State.noticeAtEntry_foreign {s : State} {i : Nat} {e : Entry} {station : Byte} {rank : BitVec 4} {any : Bool}
    (h : s.entry? i = some e) (ho : e.ownership = .consumer (.foreign station rank any)) :
    s.noticeAtEntry station i = s.orphanEntry i (.foreign station rank any) := by
  unfold State.noticeAtEntry
  rw [State.withEntry_some h, ho]
  exact if_pos ((View.ownedBy_iff _ _).mpr ⟨rank, any, rfl⟩)

/-- A notice orphans the prior state of a claim that records the station, and marks it changed (R37). -/
theorem State.noticeAtEntry_claiming {s : State} {i : Nat} {e : Entry} {station : Byte} {rank : BitVec 4} {any changed : Bool}
    (h : s.entry? i = some e) (ho : e.ownership = .claiming (.foreign station rank any) changed) :
    s.noticeAtEntry station i = s.put i { e with ownership := .claiming (.orphaned station rank) true } := by
  unfold State.noticeAtEntry
  rw [State.withEntry_some h, ho]
  exact (if_pos ((View.ownedBy_iff _ _).mpr ⟨rank, any, rfl⟩)).trans (State.modify_eq_put h _)

/-- A notice leaves an entry alone that does not record the station as owner, now or before its claim (R50). -/
theorem State.noticeAtEntry_other {s : State} {i : Nat} {e : Entry} {station : Byte} (h : s.entry? i = some e)
    (hf : ∀ rank any, e.ownership ≠ .consumer (.foreign station rank any))
    (hc : ∀ rank any changed, e.ownership ≠ .claiming (.foreign station rank any) changed) : s.noticeAtEntry station i = s := by
  unfold State.noticeAtEntry
  rw [State.withEntry_some h]
  cases ho : e.ownership with
  | consumer view =>
    refine if_neg fun hv => ?_
    obtain ⟨rank, any, rfl⟩ := (View.ownedBy_iff _ _).mp hv
    exact hf rank any ho
  | claiming prior changed =>
    refine if_neg fun hv => ?_
    obtain ⟨rank, any, rfl⟩ := (View.ownedBy_iff _ _).mp hv
    exact hc rank any changed ho
  | own | yielding => rfl

/-- PEER_NOTICE takes the oldest notice and applies it to the entries in index order (R50, R82). -/
theorem exec_peerNotice {s : State} {n : Notice} {rest : List Notice} (hr : s.rstLow = false) (hn : s.paths.notices = n :: rest) :
    exec .peerNotice s =
      .next ({ s with paths := { s.paths with notices := rest } }.eachEntry fun s i => s.noticeAtEntry n.station i) := by
  refine (State.taken_high hr State.peerNotice).trans (congrArg Host.Outcome.next ?_)
  unfold State.peerNotice
  rw [hn]
  rfl

/-! ## A CLAIM: the keys, and where it changes nothing -/

/-- Whether a telegram's key is better than the entry's own (R8). -/
theorem State.key_lt_ownKey_iff (s : State) (t : Telegram) (e : Entry) :
    t.key < s.ownKey e ↔ 32 * t.rank.toNat + t.source.toNat < 32 * e.decl.rank.toNat + s.ownNumber.toNat := by
  unfold Telegram.key State.ownKey key
  omega

/-- CLAIM_RECEIVED applies the oldest CLAIM routed to OD at its entry (R38). -/
theorem exec_claimReceived {s : State} {t : Telegram} {rest : List Telegram} {i : Nat} {e : Entry} (h : s.routed .claim t rest i e) :
    exec .claimReceived s = .next ((s.afterRouted rest).claimAtEntry i e t) :=
  (State.taken_high h.1 State.claimReceived).trans (congrArg Host.Outcome.next (State.takeRouted_routed h _))

/-- The entry a routed telegram reaches stands there still when the telegram is off its path. -/
theorem State.routed.entry?_afterRouted {s : State} {kind : TelegramKind} {t : Telegram} {rest : List Telegram} {i : Nat} {e : Entry}
    (h : s.routed kind t rest i e) : (s.afterRouted rest).entry? i = some e := by
  obtain ⟨_, _, _, _, he⟩ := h
  rw [← he]
  cases i <;> rfl

/-- A LEAVING station ignores a CLAIM (R54). -/
theorem State.claimAtEntry_leaving {s : State} (h : s.sc.state = .leaving) (i : Nat) (e : Entry) (t : Telegram) :
    s.claimAtEntry i e t = s := if_pos h

/-- A YIELDING entry ignores a CLAIM (R41). -/
theorem State.claimAtEntry_yielding {s : State} (hl : s.sc.state ≠ .leaving) (i : Nat) {e : Entry} (ho : e.ownership = .yielding)
    (t : Telegram) : s.claimAtEntry i e t = s := by
  unfold State.claimAtEntry
  rw [if_neg hl, ho]

/-! ## A CLAIM at a consumer entry -/

/-- Starting the takeover timer sets it to the entry's full delay (R7). -/
theorem State.startTakeover_eq_put {s : State} {i : Nat} {e : Entry} (h : s.entry? i = some e) :
    s.startTakeover i = s.put i { e with takeoverTimer := some (s.takeoverDelay e) } := State.modify_eq_put h _

/-- At a consumer entry a CLAIM of a better key restarts a running takeover timer, and does nothing else (R49). -/
theorem State.claimAtEntry_consumer {s : State} (hl : s.sc.state ≠ .leaving) (i : Nat) {e : Entry} {v : View}
    (ho : e.ownership = .consumer v) (t : Telegram) :
    s.claimAtEntry i e t = if e.takeoverTimer.isSome = true ∧ t.key < s.ownKey e then s.startTakeover i else s := by
  unfold State.claimAtEntry
  rw [if_neg hl, ho]
  rfl

/-! ## A CLAIM at a claimant -/

/-- At a claimant a CLAIM of a better key defeats the claim, and any other does nothing (R34). -/
theorem State.claimAtEntry_claiming {s : State} (hl : s.sc.state ≠ .leaving) (i : Nat) {e : Entry} {prior : View} {changed : Bool}
    (ho : e.ownership = .claiming prior changed) (t : Telegram) :
    s.claimAtEntry i e t = if t.key < s.ownKey e then s.loseToClaim i else s := by
  unfold State.claimAtEntry
  rw [if_neg hl, ho]
  rfl

/-- What leaves everything outside the directory and the outbound system alone leaves the takeover delay alone. -/
theorem State.Outside.takeoverDelay {s u : State} (h : s.Outside u) (e : Entry) : u.takeoverDelay e = s.takeoverDelay e := by
  unfold State.takeoverDelay State.claimWindow
  rw [h.window]

theorem State.Outside.withdrawWaiting (s : State) (i : Nat) (slot : Slot) : s.Outside (s.withdrawWaiting i slot) := by
  cases slot with
  | none | inFlight _ _ => exact State.Outside.refl s
  | waiting _ | owed _ | queued _ => exact State.Outside.withdraw s i

/-- Withdrawing what waits at an entry leaves the slot NONE, or the telegram in flight as it is (R134). -/
theorem State.exists_entry?_withdrawWaiting {s : State} {i : Nat} {e : Entry} (h : s.entry? i = some e) :
    ∃ slot, (s.withdrawWaiting i e.slot).entry? i = some { e with slot := slot } := by
  unfold State.withdrawWaiting
  split
  · exact ⟨e.slot, h⟩
  · exact ⟨e.slot, h⟩
  all_goals exact ⟨_, State.entry?_withdraw_same h⟩

/-- A withdrawal of a telegram that waits leaves the slot NONE (R134). -/
theorem State.withdraw_eq_put {s : State} {i : Nat} {e : Entry} (h : s.entry? i = some e) (hf : ∀ o f, e.slot ≠ .inFlight o f) :
    s.withdraw i = (s.withdraw i).put i { e with slot := .none } := by
  refine (State.put_self ?_).symm
  rw [State.entry?_withdraw_same h]
  cases hs : e.slot with
  | inFlight o f => exact absurd hs (hf o f)
  | none | waiting _ | owed _ | queued _ => rfl

/-- A CLAIM that has lost its reason: what waits is withdrawn, what is in flight is marked CANCEL (R33, R34). -/
theorem State.voidClaim_eq {s : State} {i : Nat} {e : Entry} (h : s.entry? i = some e) :
    s.voidClaim i = (s.withdrawWaiting i e.slot).put i { e with slot := e.slot.voided .cancel } := by
  unfold State.voidClaim
  rw [State.withEntry_some h]
  cases hs : e.slot with
  | none => exact (State.put_self (h.trans (by cases e; cases hs; rfl))).symm
  | waiting _ | owed _ | queued _ => exact State.withdraw_eq_put h (by simp [hs])
  | inFlight o f => exact State.setSlot_eq_put h _

/-- The entry of a claimant that has lost to a CLAIM, with the given takeover timer (R34). -/
def Entry.lostToClaim (e : Entry) (timer : Timer) : Entry :=
  { e with ownership := .consumer .unknown, slot := e.slot.voided .cancel, windowTimer := none, pendingTag := none, takeoverTimer := timer }

/-- A claimant that loses to a CLAIM: what waits is withdrawn, the entry is UNKNOWN, and CLAIM_OUTCOME LOST is posted; a SPARE that takes over
starts its takeover timer in ACTIVE (R34). -/
theorem State.loseToClaim_eq {s : State} {i : Nat} {e : Entry} (h : s.entry? i = some e) :
    s.loseToClaim i = ((s.withdrawWaiting i e.slot).put i (e.lostToClaim
      (if e.decl.takesOver = true ∧ s.sc.state = .active then some (s.takeoverDelay e) else e.takeoverTimer))).post
        (.claimOutcome .lost) e.decl.objectId e.tag e.version := by
  obtain ⟨slot, hw⟩ := State.exists_entry?_withdrawWaiting h
  have hput : ∀ x, ((s.withdrawWaiting i e.slot).put i x).entry? i = some x := State.entry?_put_same hw
  have hlost : ((s.voidClaim i).modify i fun e => { e with ownership := .consumer .unknown, windowTimer := none, pendingTag := none }).postEntry
      i (.claimOutcome .lost) e.tag = ((s.withdrawWaiting i e.slot).put i (e.lostToClaim e.takeoverTimer)).post
        (.claimOutcome .lost) e.decl.objectId e.tag e.version := by
    rw [State.voidClaim_eq h, State.modify_eq_put (hput _), State.put_put, State.postEntry_eq_post (hput _)]
    rfl
  unfold State.loseToClaim
  rw [State.withEntry_some h]
  dsimp only
  rw [hlost]
  split
  · have hdelay : s.Outside (((s.withdrawWaiting i e.slot).put i (e.lostToClaim e.takeoverTimer)).post
        (.claimOutcome .lost) e.decl.objectId e.tag e.version) := by
      rw [← hlost]
      refine ((State.Outside.voidClaim s i).trans ?_).trans (State.Outside.postEntry _ _ _ _)
      exact State.Outside.modify _ i fun _ => rfl
    rw [State.startTakeover_eq_put ((State.entry?_post _ _ _ _ _ i).trans (hput _)), State.put_post, State.put_put, hdelay.takeoverDelay]
    rfl
  · rfl

/-! ## A CLAIM at an owner -/

/-- An owner of rank above 0 hands back to a claimant of rank 0 (R38). -/
theorem State.claimAtEntry_handback {s : State} (hl : s.sc.state ≠ .leaving) (i : Nat) {e : Entry} (ho : e.ownership = .own)
    {t : Telegram} (ht : t.rank = 0#4) (hr : e.decl.rank ≠ 0#4) : s.claimAtEntry i e t = s.startYield i (some t.source) := by
  unfold State.claimAtEntry
  rw [if_neg hl, ho]
  exact if_pos ⟨ht, hr⟩

/-- Every other owner defends (R38). -/
theorem State.claimAtEntry_defence {s : State} (hl : s.sc.state ≠ .leaving) (i : Nat) {e : Entry} (ho : e.ownership = .own)
    {t : Telegram} (h : t.rank ≠ 0#4 ∨ e.decl.rank = 0#4) : s.claimAtEntry i e t = s.defend i := by
  unfold State.claimAtEntry
  rw [if_neg hl, ho]
  refine if_neg ?_
  rintro ⟨ht, hr⟩
  exact h.elim (· ht) hr

/-- An entry that yields, its telegram aside: YIELDING, its refresh timer stopped (R38). -/
def Entry.yielded (e : Entry) : Entry := { e with ownership := .yielding, refreshTimer := none }

/-- A yield puts the YIELD in the slot, in place of a telegram that waits, or as follow-up of one in flight (R38, R136). -/
theorem State.startYield_eq {s : State} {i : Nat} {e : Entry} (h : s.entry? i = some e) (successor : Option Byte) :
    s.startYield i successor = match e.slot with
      | .none => (s.put i e.yielded).append i (yieldOut successor)
      | .waiting _ | .owed _ | .queued _ => ((s.put i e.yielded).withdraw i).append i (yieldOut successor)
      | .inFlight o _ => s.put i { e.yielded with slot := .inFlight o (.yield successor) } := by
  have hy : s.modify i (fun e => { e with ownership := .yielding, refreshTimer := none }) = s.put i e.yielded := State.modify_eq_put h _
  unfold State.startYield
  rw [State.withEntry_some h, hy]
  cases e.slot with
  | none | waiting _ | owed _ | queued _ => rfl
  | inFlight o f => exact (State.setSlot_eq_put (State.entry?_put_same h _) _).trans (State.put_put _ _ _ _)

/-- A defence: a new URGENT PUBLISH marked as an answer, or the mark on the one that waits, made URGENT if it is ROUTINE; a telegram in flight
stands (R39, R136). -/
theorem State.defend_eq {s : State} {i : Nat} {e : Entry} (h : s.entry? i = some e) :
    s.defend i = match e.slot with
      | .none => s.append i (publishOf .urgent false true)
      | .waiting o => (s.withdraw i).append i { o with cls := .urgent, answer := true }
      | .owed o => if o.cls = .urgent then s.put i { e with slot := .owed { o with answer := true } }
        else (s.withdraw i).append i { o with cls := .urgent, answer := true }
      | .queued o => if o.cls = .urgent then s.put i { e with slot := .queued { o with answer := true } }
        else (s.withdraw i).append i { o with cls := .urgent, answer := true }
      | .inFlight _ _ => s := by
  unfold State.defend
  rw [State.withEntry_some h]
  cases e.slot with
  | none | waiting _ | inFlight _ _ => rfl
  | owed o | queued o =>
    dsimp only
    split
    next ho => exact (State.setSlot_eq_put h _).trans (if_pos ho).symm
    next ho => exact (if_neg (by simp [ho])).symm

end Sys2Proof.Machine

/-! ## The statements -/

namespace Sys2Proof

open Sys2Proof.Machine

/-- Settles O38: PEER_NOTICE is the fold over the indexes, and the notice at one entry goes by what the entry records as owner. -/
theorem aPeerNoticeOrphansTheEntriesOfThatStation : Obligations.APeerNoticeOrphansTheEntriesOfThatStation := by
  refine ⟨fun s n rest => exec_peerNotice, State.eachEntry_eq_foldl, fun s station i e h => ⟨?foreign, ?claiming, ?other⟩⟩
  case foreign =>
    intro rank any ho
    rw [State.noticeAtEntry_foreign h ho, State.orphanEntry_eq h]
    rfl
  case claiming => exact fun rank any changed => State.noticeAtEntry_claiming h
  case other => exact State.noticeAtEntry_other h

/-- Settles O42: CLAIM_RECEIVED is the CLAIM at its entry, by the station state, the ownership state, and at an owner by what the slot holds. -/
theorem aClaimMeetsAHandbackADefenceOrABetterKey : Obligations.AClaimMeetsAHandbackADefenceOrABetterKey := by
  intro s t rest i e hr
  have he : (s.afterRouted rest).entry? i = some e := hr.entry?_afterRouted
  have hkey := (s.afterRouted rest).key_lt_ownKey_iff t e
  rw [exec_claimReceived hr, ← s.afterRouted_sc rest]
  refine ⟨fun hl => ?leaving, fun hl => ⟨fun v ho => ?consumer, fun prior changed ho => ?claiming, fun ho => ?own, fun ho => ?yielding⟩,
    fun u hu => ?defence⟩
  case leaving => exact congrArg _ (State.claimAtEntry_leaving hl i e t)
  case consumer =>
    have hclaim := State.claimAtEntry_consumer hl i ho t
    refine ⟨fun hrun hbetter => ?_, fun hnot => ?_⟩
    · rw [hclaim, if_pos ⟨Option.isSome_iff_ne_none.mpr hrun, hkey.mpr hbetter⟩]
      exact congrArg _ (State.startTakeover_eq_put he)
    · rw [hclaim, if_neg]
      rintro ⟨hrun, hbetter⟩
      exact hnot.elim (Option.isSome_iff_ne_none.mp hrun) (· (hkey.mp hbetter))
  case claiming =>
    have hclaim := State.claimAtEntry_claiming hl i ho t
    refine ⟨fun hnot => ?_, fun hbetter => ?_⟩
    · rw [hclaim, if_neg (mt hkey.mp hnot)]
    · rw [hclaim, if_pos (hkey.mpr hbetter), State.loseToClaim_eq he]
      simp only [Decl.takesOver, Bool.and_eq_true, decide_eq_true_eq, and_assoc]
      rfl
  case own =>
    refine ⟨fun ht hrank => ?_, fun hdef => ?_⟩
    · exact congrArg _ ((State.claimAtEntry_handback hl i ho ht hrank).trans (State.startYield_eq he _))
    · exact congrArg _ (State.claimAtEntry_defence hl i ho hdef)
  case yielding => exact congrArg _ (State.claimAtEntry_yielding hl i ho t)
  case defence => exact State.defend_eq hu

end Sys2Proof
end

section
/-! PROOFS. A QUERY at the entry it reaches (R55, R56, R62, R72): when an answer is requested, what the request does to the slot, and from these
the statement O44. -/

namespace Sys2Proof.Machine

/-! ## Requesting an answer -/

/-- A new PUBLISH waits while the spacing timer runs, and is appended otherwise (R55, R62). -/
theorem State.publishSpaced_eq {s : State} {i : Nat} {e : Entry} (h : s.entry? i = some e) (o : Outbound) :
    s.publishSpaced i e o = match e.spacingTimer with
      | none => s.append i o
      | some _ => s.put i { e with slot := .waiting o } := by
  unfold State.publishSpaced
  rw [State.setSlot_eq_put h]
  cases e.spacingTimer with
  | none | some _ => rfl

/-- An answer is a new PUBLISH where the slot is NONE, a mark on the telegram that waits, and nothing where one is in flight (R56, R72). -/
theorem State.requestAnswer_eq {s : State} {i : Nat} {e : Entry} (h : s.entry? i = some e) :
    s.requestAnswer i = match e.slot with
      | .none => s.publishSpaced i e (publishOf e.decl.cls false true)
      | .waiting o => s.put i { e with slot := .waiting { o with answer := true } }
      | .queued o => s.put i { e with slot := .queued { o with answer := true } }
      | .owed o => s.put i { e with slot := .owed { o with answer := true } }
      | .inFlight _ _ => s := by
  unfold State.requestAnswer
  rw [State.withEntry_some h]
  cases e.slot with
  | none | inFlight _ _ => rfl
  | waiting _ | owed _ | queued _ => exact State.setSlot_eq_put h _

/-! ## A QUERY at an entry -/

/-- QUERY_RECEIVED applies the oldest QUERY routed to OD at its entry (R72). -/
theorem exec_queryReceived {s : State} {t : Telegram} {rest : List Telegram} {i : Nat} {e : Entry} (h : s.routed .query t rest i e) :
    exec .queryReceived s = .next ((s.afterRouted rest).queryAtEntry i e t) :=
  (State.taken_high h.1 State.queryReceived).trans (congrArg Host.Outcome.next (State.takeRouted_routed h _))

/-- Only an owner answers a QUERY (R72). -/
theorem State.queryAtEntry_notOwn (s : State) (i : Nat) {e : Entry} (ho : e.ownership ≠ .own) (t : Telegram) :
    s.queryAtEntry i e t = s := by
  unfold State.queryAtEntry
  split
  next hown => exact absurd hown ho
  all_goals rfl

/-- An asker that holds the version of the entry is not answered, whoever owns the entry (R72). -/
theorem State.queryAtEntry_held (s : State) (i : Nat) {e : Entry} {t : Telegram} (h : t.noneHeld = false ∧ e.version = some t.version) :
    s.queryAtEntry i e t = s := by
  unfold State.queryAtEntry
  split
  · exact if_pos h
  all_goals rfl

/-- An owner requests an answer for an asker that does not hold its version (R72). -/
theorem State.queryAtEntry_own (s : State) (i : Nat) {e : Entry} (ho : e.ownership = .own) {t : Telegram}
    (h : ¬ (t.noneHeld = false ∧ e.version = some t.version)) : s.queryAtEntry i e t = s.requestAnswer i := by
  unfold State.queryAtEntry
  rw [ho]
  exact if_neg h

end Sys2Proof.Machine

/-! ## The statement -/

namespace Sys2Proof

open Sys2Proof.Machine

/-- Settles O44: QUERY_RECEIVED is the QUERY at its entry, by the ownership state and the version the asker holds, and an answer by what the slot
and the spacing timer hold. -/
theorem aQueryIsAnsweredByAnOwnerWithAnotherVersion : Obligations.AQueryIsAnsweredByAnOwnerWithAnotherVersion := by
  intro s t rest i e hr
  have he : (s.afterRouted rest).entry? i = some e := hr.entry?_afterRouted
  rw [exec_queryReceived hr]
  refine ⟨fun ho => ?notOwn, fun hheld => ?held, fun ho hother => ?answered⟩
  case notOwn => exact congrArg _ (State.queryAtEntry_notOwn _ i ho t)
  case held => exact congrArg _ (State.queryAtEntry_held _ i hheld)
  case answered =>
    rw [State.queryAtEntry_own _ i ho hother, State.requestAnswer_eq he, State.publishSpaced_eq he]
    rfl

end Sys2Proof
end

section
/-! PROOFS. A delivered telegram (R100 to R105): the six checks, read kind by kind, the routing of a good telegram by its object id, and from these
the statement O36. -/

namespace Sys2Proof.Machine

/-! ## The kinds -/

/-- A kind code stands for the kind whose code it is (R202). -/
theorem Telegram.kindOf_eq_some_iff (t : Telegram) (k : TelegramKind) : t.kindOf = some k ↔ t.kind = k.code := by
  have hcode : ∀ c : BitVec 4, TelegramKind.ofCode c = some k ↔ c = k.code := by cases k <;> decide
  exact hcode t.kind

/-- The codes that stand for no kind are those outside 1..5 (R202). -/
theorem Telegram.kindOf_eq_none_iff (t : Telegram) : t.kindOf = none ↔ ¬ (1 ≤ t.kind.toNat ∧ t.kind.toNat ≤ 5) := by
  have hcode : ∀ c : BitVec 4, TelegramKind.ofCode c = none ↔ ¬ (1 ≤ c.toNat ∧ c.toNat ≤ 5) := by decide
  exact hcode t.kind

/-! ## The six checks -/

/-- Step 3: every object id but 0 and 4095 (R100). -/
theorem Telegram.objectId_fits_iff (t : Telegram) :
    (t.objectId ≠ 0#12 ∧ t.objectId ≠ 4095#12) ↔ (t.objectId.toNat ≠ 0 ∧ t.objectId.toNat ≠ 4095) := by
  simp only [ne_eq, ← BitVec.toNat_inj, BitVec.toNat_ofNat, Nat.reducePow, Nat.reduceMod]

/-- Step 5: the kinds without a payload (R100). -/
theorem Telegram.lengthFits_empty_iff (t : Telegram) {k : TelegramKind} (hk : k = .query ∨ k = .claim ∨ k = .presence) :
    t.lengthFits k = true ↔ t.length.toNat = 0 := by
  have hzero : t.length = 0#8 ↔ t.length.toNat = 0 := BitVec.toNat_inj.symm
  obtain rfl | rfl | rfl := hk <;> exact decide_eq_true_iff.trans hzero

/-- Step 5: a YIELD has at most one payload byte, and that one is a station number (R100). -/
theorem Telegram.lengthFits_yield_iff (t : Telegram) :
    t.lengthFits .yield = true ↔ t.length.toNat ≤ 1
      ∧ (t.length.toNat = 1 → ∃ n, t.payload.head? = some n ∧ 1 ≤ n.toNat ∧ n.toNat ≤ 31) := by
  have hzero : t.length = 0#8 ↔ t.length.toNat = 0 := BitVec.toNat_inj.symm
  have hone : t.length = 1#8 ↔ t.length.toNat = 1 := BitVec.toNat_inj.symm
  unfold Telegram.lengthFits
  simp only [Bool.or_eq_true, Bool.and_eq_true, decide_eq_true_eq, hzero, hone]
  cases t.payload.head? with
  | none => simp; omega
  | some n => simp; omega

/-- TF's verdict is that of the six checks (R100). -/
theorem Telegram.valid_iff_passesChecks (t : Telegram) : t.valid = true ↔ t.PassesChecks := by
  unfold Telegram.valid Telegram.PassesChecks
  cases hk : t.kindOf with
  | none =>
    have hkind := t.kindOf_eq_none_iff.mp hk
    simp [hkind]
  | some k =>
    have hkind := (t.kindOf_eq_some_iff k).mp hk
    cases k with
    | publish => simp [hkind, TelegramKind.code, Telegram.lengthFits, t.objectId_fits_iff]
    | query | claim =>
      simp [hkind, TelegramKind.code, t.lengthFits_empty_iff, t.objectId_fits_iff, and_assoc]
    | yield => simp [hkind, TelegramKind.code, t.lengthFits_yield_iff, t.objectId_fits_iff, and_assoc]
    | presence => simp [hkind, TelegramKind.code, t.lengthFits_empty_iff, Telegram.presenceFits, and_assoc]

/-! ## Routing -/

/-- OD finds an entry for an object id exactly where some entry carries it (R1). -/
theorem State.find_isSome_iff (s : State) (id : Nat) : (s.find id).isSome = true ↔ ¬ s.lacks id := by
  simp [State.find, State.lacks]

/-- The interest bit of an object id: id / 64 and id, combined bit by bit, modulo 64 (R104). -/
theorem interestBit_eq (id : BitVec 12) : interestBit id = (id.toNat / 64 ^^^ id.toNat) % 64 := by
  have hmask : ∀ n : Nat, n &&& 63 = n % 64 := fun n => Nat.and_two_pow_sub_one_eq_mod n 6
  simp [interestBit, hmask, Nat.shiftRight_eq_div_pow]

/-- A telegram other than a PRESENCE goes to OD if an entry carries its object id (R103). -/
theorem State.route_toOd {s : State} {t : Telegram} (hp : t.kind ≠ 5#4) (hd : ¬ s.lacks t.objectId.toNat) :
    s.route t = { s with paths := { s.paths with toOd := s.paths.toOd ++ [t] } } := by
  unfold State.route
  rw [if_neg (mt (t.kindOf_eq_some_iff .presence).mp hp), if_pos ((s.find_isSome_iff _).mpr hd)]

/-- A PUBLISH for an object no entry carries goes to the ring if its interest bit is set (R104). -/
theorem State.route_toRing {s : State} {t : Telegram} (hp : t.kind = 1#4) (hl : s.lacks t.objectId.toNat)
    (hi : s.tf.interest.getLsbD ((t.objectId.toNat / 64 ^^^ t.objectId.toNat) % 64) = true) :
    s.route t = { s with paths := { s.paths with toRing := s.paths.toRing ++ [t] } } := by
  have hk : t.kindOf = some .publish := (t.kindOf_eq_some_iff .publish).mpr hp
  have hnone : ¬ (s.find t.objectId.toNat).isSome = true := fun h => (s.find_isSome_iff _).mp h hl
  unfold State.route
  rw [if_neg (by simp [hk]), if_neg hnone, if_pos ⟨hk, by rw [interestBit_eq]; exact hi⟩]

/-- Every other telegram goes to no one (R102, R105). -/
theorem State.route_dropped {s : State} {t : Telegram} (hd : ¬ (t.kind ≠ 5#4 ∧ ¬ s.lacks t.objectId.toNat))
    (hr : ¬ (t.kind = 1#4 ∧ s.lacks t.objectId.toNat
      ∧ s.tf.interest.getLsbD ((t.objectId.toNat / 64 ^^^ t.objectId.toNat) % 64) = true)) : s.route t = s := by
  unfold State.route
  by_cases hp : t.kindOf = some .presence
  · exact if_pos hp
  · have hl : s.lacks t.objectId.toNat :=
      Classical.byContradiction fun h => hd ⟨mt (t.kindOf_eq_some_iff .presence).mpr hp, h⟩
    have hnone : ¬ (s.find t.objectId.toNat).isSome = true := fun h => (s.find_isSome_iff _).mp h hl
    rw [if_neg hp, if_neg hnone, if_neg ?_]
    rintro ⟨hk, hi⟩
    exact hr ⟨(t.kindOf_eq_some_iff .publish).mp hk, hl, by rw [← interestBit_eq]; exact hi⟩

/-! ## A delivered telegram -/

/-- An increment leaves OD alone. -/
theorem State.bump_od (s : State) (c : Counter) : (s.bump c).od = s.od := by
  obtain ⟨q, l, n, a, h⟩ := s.bump_eq c
  rw [h]

/-- A good telegram counted, and handed to PM (R101, R102). -/
def State.heardGood (s : State) (t : Telegram) : State :=
  let counted := s.bump .rxGood
  { counted with paths := { counted.paths with toPm := s.paths.toPm ++ [t] } }

theorem State.heardGood_toOd (s : State) (t : Telegram) : (s.heardGood t).paths.toOd = s.paths.toOd :=
  congrArg (·.toOd) (State.Outside.bump s .rxGood).paths

theorem State.heardGood_toRing (s : State) (t : Telegram) : (s.heardGood t).paths.toRing = s.paths.toRing :=
  congrArg (·.toRing) (State.Outside.bump s .rxGood).paths

theorem State.heardGood_tf (s : State) (t : Telegram) : (s.heardGood t).tf = s.tf := (State.Outside.bump s .rxGood).tf

theorem State.heardGood_lacks_iff (s : State) (t : Telegram) (id : Nat) : (s.heardGood t).lacks id ↔ s.lacks id := by
  show (∀ e ∈ (s.bump .rxGood).od.entries, _) ↔ _
  rw [State.bump_od]
  rfl

/-- A telegram that fails a check is counted bad (R100). -/
theorem State.filter_bad (s : State) {t : Telegram} (h : ¬ t.PassesChecks) : s.filter t = s.bump .rxBad :=
  if_pos (Bool.eq_false_iff.mpr (mt t.valid_iff_passesChecks.mp h))

/-- A valid telegram of the own number is reported as a duplicate (R101). -/
theorem State.filter_duplicate {s : State} {t : Telegram} (h : t.PassesChecks) (hn : t.source = s.ownNumber) :
    s.filter t = { s with paths := { s.paths with duplicates := s.paths.duplicates + 1 } } := by
  unfold State.filter
  rw [if_neg (by simp [t.valid_iff_passesChecks.mpr h]), if_pos hn]

/-- Every other valid telegram is good: counted, heard and routed (R101). -/
theorem State.filter_good {s : State} {t : Telegram} (h : t.PassesChecks) (hn : t.source ≠ s.ownNumber) :
    s.filter t = (s.heardGood t).route t := by
  unfold State.filter
  rw [if_neg (by simp [t.valid_iff_passesChecks.mpr h]), if_neg hn]
  unfold State.heardGood
  rw [← (State.Outside.bump s .rxGood).paths]

/-- DELIVERED_TELEGRAM takes the oldest delivered telegram through the filter (R100). -/
theorem exec_deliveredTelegram {s : State} {t : Telegram} {rest : List Telegram} (hr : s.rstLow = false) (ht : s.paths.toTf = t :: rest) :
    exec .deliveredTelegram s = .next ({ s with paths := { s.paths with toTf := rest } }.filter t) := by
  refine (State.taken_high hr State.deliveredTelegram).trans (congrArg Host.Outcome.next ?_)
  unfold State.deliveredTelegram
  rw [ht]

end Sys2Proof.Machine

/-! ## The statement -/

namespace Sys2Proof

open Sys2Proof.Machine

/-- Settles O36: DELIVERED_TELEGRAM is the filter, by the six checks and the source; a good telegram is counted and heard, and goes where its kind,
its object id and its interest bit send it. -/
theorem aDeliveredTelegramIsCheckedAndRouted : Obligations.ADeliveredTelegramIsCheckedAndRouted := by
  intro s t rest hr ht taken
  have hexec : exec .deliveredTelegram s = .next (taken.filter t) := exec_deliveredTelegram hr ht
  rw [hexec]
  refine ⟨fun hbad => ?bad, fun hgood hown => ?duplicate, fun hgood hother => ?good⟩
  case bad => exact congrArg _ (taken.filter_bad hbad)
  case duplicate => exact congrArg _ (State.filter_duplicate hgood hown)
  case good =>
    have hlacks : (taken.heardGood t).lacks t.objectId.toNat ↔ s.lacks t.objectId.toNat := taken.heardGood_lacks_iff t _
    have htf : (taken.heardGood t).tf = s.tf := taken.heardGood_tf t
    have hrouted : taken.filter t = (taken.heardGood t).route t := State.filter_good hgood hother
    rw [hrouted]
    refine ⟨fun ⟨hkind, hdeclared⟩ => congrArg _ ?toOd, fun ⟨hkind, hlack, hbit⟩ => congrArg _ ?toRing,
      fun hnotOd hnotRing => congrArg _ ?dropped⟩
    case toOd =>
      rw [State.route_toOd hkind (mt hlacks.mp hdeclared), State.heardGood_toOd]
      rfl
    case toRing =>
      rw [State.route_toRing hkind (hlacks.mpr hlack) (by rw [htf]; exact hbit), State.heardGood_toRing]
      rfl
    case dropped => exact State.route_dropped (by rw [hlacks]; exact hnotOd) (by rw [hlacks, htf]; exact hnotRing)

end Sys2Proof
end

section
/-! PROOFS. A withdrawal, and the offer of a freed place (R134, R135): what each does by where the telegram stood and by what is owed, and from
these the statement O52. -/

namespace Sys2Proof.Machine

/-! ## The offer of a freed place -/

/-- The entry of an index is read from the entries of the directory alone. -/
theorem State.entry?_of_entries {s t : State} (h : t.od.entries = s.od.entries) (i : Nat) : t.entry? i = s.entry? i := by
  cases i with
  | zero => rfl
  | succ k => exact congrArg (fun l : List Entry => l[k]?) h

theorem Entry.promoted_owed {e : Entry} {o : Outbound} (h : e.slot = .owed o) : e.promoted = { e with slot := .queued o } := by
  unfold Entry.promoted
  rw [h]

/-- The owed entry that takes a place is QUEUED (R135). -/
theorem State.modify_promoted {s : State} {i : Nat} {e : Entry} {o : Outbound} (h : s.entry? i = some e) (ho : e.slot = .owed o) :
    s.modify i Entry.promoted = s.put i { e with slot := .queued o } := by
  rw [State.modify_eq_put h, Entry.promoted_owed ho]

/-- An URGENT place goes to the head of the URGENT-owed list, which leaves that list for the queue's tail (R135). -/
theorem State.offerUrgent_head {s : State} {i : Nat} {rest : List Nat} {e : Entry} {o : Outbound} (hq : s.od.urgentOwed = i :: rest)
    (h : s.entry? i = some e) (ho : e.slot = .owed o) (hroom : s.ts.urgent.length < Config.urgentCapacity) :
    s.offerUrgent = { s.put i { e with slot := .queued o } with
      od := { (s.put i { e with slot := .queued o }).od with urgentOwed := rest }
      ts := { s.ts with urgent := s.ts.urgent ++ [i] } } := by
  have hoffer : s.offerUrgent =
      { s with od := { s.od with urgentOwed := rest }, ts := { s.ts with urgent := s.ts.urgent ++ [i] } }.modify i Entry.promoted := by
    unfold State.offerUrgent
    rw [hq]
    exact if_pos hroom
  rw [hoffer, State.modify_promoted ?present ho]
  case present => exact (State.entry?_of_entries rfl i).trans h
  rfl

/-- With no URGENT telegram owed, or no URGENT place free, nothing is offered (R135). -/
theorem State.offerUrgent_idle {s : State} (h : s.od.urgentOwed = [] ∨ Config.urgentCapacity ≤ s.ts.urgent.length) : s.offerUrgent = s := by
  unfold State.offerUrgent
  split
  next => rfl
  next i rest hq =>
    have hfull : Config.urgentCapacity ≤ s.ts.urgent.length := h.resolve_left (by simp [hq])
    exact if_neg (Nat.not_lt.mpr hfull)

/-- A ROUTINE place goes to the owed PRESENCE first (R135). -/
theorem State.offerRoutine_presence {s : State} {st : PresenceStatus} (hp : s.sc.presence = .owed st)
    (hroom : s.ts.routine.length < Config.routineCapacity) :
    s.offerRoutine = { s with sc := { s.sc with presence := .queued st } }.joinRoutine .presence := by
  unfold State.offerRoutine
  rw [if_pos hroom, hp]

/-- With no PRESENCE owed, a ROUTINE place is the ROUTINE-owed list's (R135). -/
theorem State.offerRoutine_entries {s : State} (hp : ∀ st, s.sc.presence ≠ .owed st)
    (hroom : s.ts.routine.length < Config.routineCapacity) :
    s.offerRoutine = match s.od.routineOwed with
      | [] => s
      | i :: rest => ({ s with od := { s.od with routineOwed := rest } }.modify i Entry.promoted).joinRoutine (.entry i) := by
  unfold State.offerRoutine
  rw [if_pos hroom]
  cases hpres : s.sc.presence with
  | owed st => exact absurd hpres (hp st)
  | none | queued _ | inFlight _ _ => rfl

/-- With no PRESENCE owed, a ROUTINE place goes to the head of the ROUTINE-owed list (R135). -/
theorem State.offerRoutine_head {s : State} {i : Nat} {rest : List Nat} {e : Entry} {o : Outbound} (hp : ∀ st, s.sc.presence ≠ .owed st)
    (hq : s.od.routineOwed = i :: rest) (h : s.entry? i = some e) (ho : e.slot = .owed o)
    (hroom : s.ts.routine.length < Config.routineCapacity) :
    s.offerRoutine = { s.put i { e with slot := .queued o } with
      od := { (s.put i { e with slot := .queued o }).od with routineOwed := rest } }.joinRoutine (.entry i) := by
  rw [State.offerRoutine_entries hp hroom, hq]
  dsimp only
  rw [State.modify_promoted ?present ho]
  case present => exact (State.entry?_of_entries rfl i).trans h
  rfl

/-- With no ROUTINE place free, or no telegram of the class owed, nothing is offered (R135). -/
theorem State.offerRoutine_idle {s : State}
    (h : Config.routineCapacity ≤ s.ts.routine.length ∨ ((∀ st, s.sc.presence ≠ .owed st) ∧ s.od.routineOwed = [])) : s.offerRoutine = s := by
  by_cases hroom : s.ts.routine.length < Config.routineCapacity
  case pos =>
    obtain ⟨hp, hq⟩ := h.resolve_left (Nat.not_le.mpr hroom)
    rw [State.offerRoutine_entries hp hroom, hq]
  case neg =>
    unfold State.offerRoutine
    exact if_neg hroom

/-! ## A withdrawal -/

/-- A withdrawal at an entry, by where its telegram stands (R134). -/
theorem State.withdraw_eq {s : State} {i : Nat} {e : Entry} (h : s.entry? i = some e) :
    s.withdraw i = match e.slot with
      | .none | .inFlight _ _ => s
      | .waiting _ => s.put i { e with slot := .none }
      | .owed _ => { s.put i { e with slot := .none } with
          od := { (s.put i { e with slot := .none }).od with
            urgentOwed := s.od.urgentOwed.erase i, routineOwed := s.od.routineOwed.erase i } }
      | .queued o => match o.cls with
        | .urgent => { s.put i { e with slot := .none } with ts := { s.ts with urgent := s.ts.urgent.erase i } }.offerUrgent
        | .routine => { s.put i { e with slot := .none } with ts := { s.ts with routine := s.ts.routine.erase (.entry i) } }.judgeBacklog.offerRoutine := by
  unfold State.withdraw
  rw [State.withEntry_some h, State.setSlot_eq_put h]
  cases e.slot with
  | none | inFlight _ _ | waiting _ | owed _ => rfl
  | queued o => cases o.cls with
    | urgent | routine => rfl

end Sys2Proof.Machine

/-! ## The statement -/

namespace Sys2Proof

open Sys2Proof.Machine

/-- Settles O52: the withdrawal by the state of the slot, then each offer by what is owed in its class and by the room in its queue. -/
theorem aWithdrawalFreesAPlaceThatIsOffered : Obligations.AWithdrawalFreesAPlaceThatIsOffered := by
  refine ⟨fun s i e h => ?withdrawal, fun s i rest e o hq h ho hroom => State.offerUrgent_head hq h ho hroom,
    fun s h => State.offerUrgent_idle h, fun s st hp hroom => State.offerRoutine_presence hp hroom,
    fun s i rest e o hp hq h ho hroom => State.offerRoutine_head hp hq h ho hroom, fun s h => State.offerRoutine_idle h⟩
  case withdrawal =>
    rw [State.withdraw_eq h]
    refine ⟨fun hkept => ?kept, fun o ho => ?waiting, fun o ho => ?owed, fun o ho hc => ?urgent, fun o ho hc => ?routine⟩
    case kept =>
      obtain hnone | ⟨o, f, hflight⟩ := hkept
      · rw [hnone]
      · rw [hflight]
    case waiting | owed => rw [ho]
    case urgent | routine => simp only [ho, hc]

end Sys2Proof
end

section
/-! PROOFS. The validation of the staging buffer (R163, R166, R167): the checks of header and station record, one entry declaration, the run over the
declarations, the search for a repeated object id, and from these the statement O30. -/

namespace Sys2Proof.Machine

/-- A 16-bit number of the buffer as its two bytes (R201). -/
theorem Memory.toNat_read16 (m : Memory) (k : Nat) : (m.read16 k).toNat = 256 * (m.read k).toNat + (m.read (k + 1)).toNat := by
  have hlow : (m.read (k + 1)).toNat < 2 ^ 8 := (m.read (k + 1)).isLt
  rw [Memory.read16, BitVec.toNat_append, ← Nat.shiftLeft_add_eq_or_of_lt hlow, Nat.shiftLeft_eq]
  omega

/-! ## Steps 1 to 6, as the manual words them -/

/-- Step 1: the format code (R166). -/
def Memory.FormatHolds (m : Memory) : Prop := (m.read 0).toNat = 1

/-- Step 2: the entry count (R166). -/
def Memory.CountHolds (m : Memory) : Prop := 1 ≤ (m.read 8).toNat ∧ (m.read 8).toNat ≤ 64

/-- Step 3: the CRC-16 after the last declaration (R166). -/
def Memory.CheckHolds (m : Memory) : Prop :=
  let n := (m.read 8).toNat
  crc16 (m.readAll 0 (17 + 10 * n)) = m.read (17 + 10 * n) ++ m.read (18 + 10 * n)

/-- Step 4: the station number (R166). -/
def Memory.StationHolds (m : Memory) : Prop := 1 ≤ (m.read 1).toNat ∧ (m.read 1).toNat ≤ 31

/-- Step 5: the rate code (R166). -/
def Memory.RateHolds (m : Memory) : Prop := (m.read 2).toNat % 16 ≤ 3

/-- Step 6: period, claim window, join listen and mute interval (R166). -/
def Memory.TimingHolds (m : Memory) : Prop :=
  let joinListen := 256 * (m.read 5).toNat + (m.read 6).toNat
  (2 ≤ (m.read 3).toNat ∧ (m.read 3).toNat ≤ 200) ∧ (5 ≤ (m.read 4).toNat ∧ (m.read 4).toNat ≤ 250)
    ∧ (5 ≤ joinListen ∧ joinListen ≤ 500) ∧ (1 ≤ (m.read 7).toNat ∧ (m.read 7).toNat ≤ 100)

theorem Memory.formatHolds_iff (m : Memory) : m.FormatHolds ↔ m.read 0 = 1#8 := BitVec.toNat_inj (y := 1#8)

theorem Memory.checkHolds_iff (m : Memory) :
    m.CheckHolds ↔ crc16 (m.readAll 0 (17 + 10 * m.entryCount)) = m.read16 (17 + 10 * m.entryCount) := by
  have hlow : 18 + 10 * m.entryCount = 17 + 10 * m.entryCount + 1 := by omega
  rw [Memory.read16, ← hlow]
  rfl

theorem Memory.rateHolds_iff (m : Memory) : m.RateHolds ↔ ¬ 3 < ((m.read 2).extractLsb' 0 4).toNat := by
  rw [BitVec.extractLsb'_toNat, Nat.shiftRight_zero, Nat.not_lt]
  rfl

theorem Memory.timingHolds_iff (m : Memory) :
    m.TimingHolds ↔ 2 ≤ (m.read 3).toNat ∧ (m.read 3).toNat ≤ 200 ∧ 5 ≤ (m.read 4).toNat ∧ (m.read 4).toNat ≤ 250
      ∧ 5 ≤ (m.read16 5).toNat ∧ (m.read16 5).toNat ≤ 500 ∧ 1 ≤ (m.read 7).toNat ∧ (m.read 7).toNat ≤ 100 := by
  simp only [Memory.TimingHolds, Memory.toNat_read16, and_assoc]

/-! ## The first failing check of the header and of the station record -/

section Checks

variable {m : Memory}

theorem Memory.headerFault_badFormat (hf : ¬ m.FormatHolds) : m.headerFault = some .badFormat :=
  if_pos (mt m.formatHolds_iff.mpr hf)

theorem Memory.headerFault_badCount (hf : m.FormatHolds) (hc : ¬ m.CountHolds) : m.headerFault = some .badCount :=
  (if_neg (Classical.not_not.mpr (m.formatHolds_iff.mp hf))).trans (if_pos hc)

theorem Memory.headerFault_none (hf : m.FormatHolds) (hc : m.CountHolds) : m.headerFault = none :=
  (if_neg (Classical.not_not.mpr (m.formatHolds_iff.mp hf))).trans (if_neg (Classical.not_not.mpr hc))

/-- Steps 3 to 6 as one chain over the checks as the manual words them (R166). -/
theorem Memory.stationFault_eq (m : Memory) [Decidable m.CheckHolds] [Decidable m.StationHolds] [Decidable m.RateHolds]
    [Decidable m.TimingHolds] :
    m.stationFault =
      if ¬ m.CheckHolds then some .badCheck
      else if ¬ m.StationHolds then some .badStation
      else if ¬ m.RateHolds then some .badRate
      else if ¬ m.TimingHolds then some .badTiming
      else none := by
  simp only [Memory.stationFault, m.checkHolds_iff, m.rateHolds_iff, m.timingHolds_iff, Memory.StationHolds, Classical.not_not, ne_eq]

theorem Memory.stationFault_badCheck (hcheck : ¬ m.CheckHolds) : m.stationFault = some .badCheck := by
  classical simp only [m.stationFault_eq, hcheck, not_false_eq_true, if_true]

theorem Memory.stationFault_badStation (hcheck : m.CheckHolds) (hstation : ¬ m.StationHolds) : m.stationFault = some .badStation := by
  classical simp only [m.stationFault_eq, hcheck, hstation, not_true_eq_false, not_false_eq_true, if_true, if_false]

theorem Memory.stationFault_badRate (hcheck : m.CheckHolds) (hstation : m.StationHolds) (hrate : ¬ m.RateHolds) :
    m.stationFault = some .badRate := by
  classical simp only [m.stationFault_eq, hcheck, hstation, hrate, not_true_eq_false, not_false_eq_true, if_true, if_false]

theorem Memory.stationFault_badTiming (hcheck : m.CheckHolds) (hstation : m.StationHolds) (hrate : m.RateHolds)
    (htiming : ¬ m.TimingHolds) : m.stationFault = some .badTiming := by
  classical simp only [m.stationFault_eq, hcheck, hstation, hrate, htiming, not_true_eq_false, not_false_eq_true, if_true, if_false]

theorem Memory.stationFault_none (hcheck : m.CheckHolds) (hstation : m.StationHolds) (hrate : m.RateHolds) (htiming : m.TimingHolds) :
    m.stationFault = none := by
  classical simp only [m.stationFault_eq, hcheck, hstation, hrate, htiming, not_true_eq_false, if_false]

/-! ## The verdict -/

theorem Memory.validate_headerFault {f : FaultCode} (hh : m.headerFault = some f) : m.validate = .error (f, 0) := by
  rw [Memory.validate, hh]

theorem Memory.validate_stationFault {f : FaultCode} (hh : m.headerFault = none) (hs : m.stationFault = some f) :
    m.validate = .error (f, 0) := by
  rw [Memory.validate, hh, hs]

theorem Memory.validate_badEntry {k : Nat} (hh : m.headerFault = none) (hs : m.stationFault = none)
    (hd : m.declsFrom 1 m.entryCount = .error k) : m.validate = .error (.badEntry, k) := by
  rw [Memory.validate, hh, hs, hd]

theorem Memory.validate_repeated {decls : List Decl} {k : Nat} (hh : m.headerFault = none) (hs : m.stationFault = none)
    (hd : m.declsFrom 1 m.entryCount = .ok decls) (hr : firstRepeat [] 1 decls = some k) :
    m.validate = .error (.duplicateObject, k) := by
  simp only [Memory.validate, hh, hs, hd, hr]

theorem Memory.validate_ok {decls : List Decl} (hh : m.headerFault = none) (hs : m.stationFault = none)
    (hd : m.declsFrom 1 m.entryCount = .ok decls) (hr : firstRepeat [] 1 decls = none) : m.validate = .ok (m.image decls) := by
  simp only [Memory.validate, hh, hs, hd, hr]

end Checks

/-! ## Step 7: the first declaration out of range -/

theorem Memory.declsFrom_head_error {m : Memory} {k : Nat} (n : Nat) (h : m.declAt (declOffset k) = none) :
    m.declsFrom k (n + 1) = .error k := by
  simp only [Memory.declsFrom, h]

theorem Memory.declsFrom_tail_error {m : Memory} {k n j : Nat} (h : m.declAt (declOffset k) ≠ none)
    (ht : m.declsFrom (k + 1) n = .error j) : m.declsFrom k (n + 1) = .error j := by
  obtain ⟨d, hd⟩ := Option.ne_none_iff_exists'.mp h
  simp only [Memory.declsFrom, hd, ht]

/-- The index of the first declaration with a field out of range, counted from k (R167). -/
theorem Memory.declsFrom_error (m : Memory) {j : Nat} : ∀ {n k : Nat}, j < n → m.declAt (declOffset (k + j)) = none →
    (∀ i, i < j → m.declAt (declOffset (k + i)) ≠ none) → m.declsFrom k n = .error (k + j) := by
  induction j with
  | zero =>
    rintro (_ | n) k hn hbad _
    · exact absurd hn (Nat.lt_irrefl 0)
    · exact Memory.declsFrom_head_error n hbad
  | succ j ih =>
    rintro (_ | n) k hn hbad hgood
    · exact absurd hn (Nat.not_lt_zero _)
    · have hshift : ∀ i, k + (i + 1) = k + 1 + i := fun i => by omega
      have htail : m.declsFrom (k + 1) n = .error (k + 1 + j) :=
        ih (Nat.lt_of_succ_lt_succ hn) (hshift j ▸ hbad) fun i hi => hshift i ▸ hgood (i + 1) (Nat.succ_lt_succ hi)
      rw [hshift]
      exact Memory.declsFrom_tail_error (hgood 0 (Nat.succ_pos j)) htail

/-- Declarations that are all in range are read in their order (R167). -/
theorem Memory.declsFrom_ok (m : Memory) : ∀ (decls : List Decl) (k : Nat),
    (∀ i, i < decls.length → m.declAt (declOffset (k + i)) = decls[i]?) → m.declsFrom k decls.length = .ok decls
  | [], _, _ => rfl
  | d :: ds, k, h => by
    have hd : m.declAt (declOffset k) = some d := h 0 (Nat.succ_pos _)
    have htail : m.declsFrom (k + 1) ds.length = .ok ds := by
      refine Memory.declsFrom_ok m ds (k + 1) fun i hi => ?_
      rw [Nat.add_assoc, Nat.add_comm 1 i]
      exact h (i + 1) (Nat.succ_lt_succ hi)
    rw [List.length_cons, Memory.declsFrom, hd, htail]

/-- Step 7 fails at index k of the n declarations, counted from 1 (R167). -/
theorem Memory.declsFrom_one_error {m : Memory} {n k : Nat} (hk : 1 ≤ k) (hkn : k ≤ n) (hbad : m.declAt (declOffset k) = none)
    (hgood : ∀ j, 1 ≤ j → j < k → m.declAt (declOffset j) ≠ none) : m.declsFrom 1 n = .error k := by
  obtain ⟨j, rfl⟩ := Nat.exists_eq_add_of_le hk
  exact m.declsFrom_error (by omega) hbad fun i hi => hgood (1 + i) (by omega) (by omega)

/-- Step 7 passes if every declaration, counted from 1, is in range (R167). -/
theorem Memory.declsFrom_one_ok {m : Memory} {decls : List Decl}
    (h : ∀ k, 1 ≤ k → k ≤ decls.length → m.declAt (declOffset k) = decls[k - 1]?) : m.declsFrom 1 decls.length = .ok decls := by
  refine m.declsFrom_ok decls 1 fun i hi => ?_
  rw [h (1 + i) (by omega) (by omega), Nat.add_sub_cancel_left]

/-! ## Step 8: the lowest index that repeats an object id -/

/-- The search passes over declarations whose ids differ from each other and from those seen, and has then seen theirs too (R167). -/
theorem firstRepeat_append (rest : List Decl) : ∀ (ds : List Decl) (seen : List (BitVec 12)) (k : Nat),
    ((ds.map fun d => d.objectId).reverse ++ seen).Nodup →
    firstRepeat seen k (ds ++ rest) = firstRepeat ((ds.map fun d => d.objectId).reverse ++ seen) (k + ds.length) rest
  | [], _, _, _ => rfl
  | d :: ds, seen, k, h => by
    rw [List.map_cons, List.reverse_cons, List.append_assoc, List.singleton_append] at h ⊢
    obtain ⟨_, hseen, _⟩ := List.nodup_append.mp h
    obtain ⟨hnew, _⟩ := List.nodup_cons.mp hseen
    rw [List.cons_append, firstRepeat, if_neg (mt List.contains_iff_mem.mp hnew), firstRepeat_append rest ds (d.objectId :: seen) (k + 1) h,
      List.length_cons, Nat.add_assoc, Nat.add_comm 1 ds.length]

/-- What the search has seen after ids that differ, from an empty start, differs too. -/
theorem nodup_seen {ids : List (BitVec 12)} (h : ids.Nodup) : (ids.reverse ++ []).Nodup := by
  rw [List.append_nil]
  exact (List.reverse_perm ids).nodup_iff.mpr h

/-- Declarations of different object ids hold no repeat (R167). -/
theorem firstRepeat_none {decls : List Decl} (h : (decls.map fun d => d.objectId).Nodup) (k : Nat) : firstRepeat [] k decls = none := by
  have hpass := firstRepeat_append [] decls [] k (nodup_seen h)
  rwa [List.append_nil] at hpass

/-- The declaration after `before`, whose ids all differ, is the first repeat if one of them carries its id (R167). -/
theorem firstRepeat_some {before rest : List Decl} {d : Decl} (h : (before.map fun d => d.objectId).Nodup)
    (hd : ∃ d' ∈ before, d'.objectId = d.objectId) (k : Nat) : firstRepeat [] k (before ++ d :: rest) = some (k + before.length) := by
  have hseen : d.objectId ∈ (before.map fun d => d.objectId).reverse ++ [] :=
    List.mem_append_left [] (List.mem_reverse.mpr (List.mem_map.mpr hd))
  rw [firstRepeat_append (d :: rest) before [] k (nodup_seen h), firstRepeat, if_pos (List.contains_iff_mem.mpr hseen)]

/-- The declaration of index k, counted from 1, is the first repeat if one of lower index carries its id and those differ from each other (R167). -/
theorem firstRepeat_at {decls : List Decl} {d : Decl} {k : Nat} (hk : 1 ≤ k) (hd : decls[k - 1]? = some d)
    (hrepeat : ∃ d' ∈ decls.take (k - 1), d'.objectId = d.objectId) (hnodup : ((decls.take (k - 1)).map fun d => d.objectId).Nodup) :
    firstRepeat [] 1 decls = some k := by
  obtain ⟨hlt, rfl⟩ := List.getElem?_eq_some_iff.mp hd
  have hfirst := firstRepeat_some (rest := decls.drop (k - 1 + 1)) hnodup hrepeat 1
  rwa [← List.drop_eq_getElem_cons hlt, List.take_append_drop, List.length_take_of_le (Nat.le_of_lt hlt), Nat.add_sub_cancel' hk] at hfirst

/-! ## One entry declaration -/

/-- Every field of the declaration at an offset is in range (R163, R203). -/
def Memory.DeclHolds (m : Memory) (o : Nat) : Prop :=
  let id := 256 * (m.read o).toNat + (m.read (o + 1)).toNat
  let role := (m.read (o + 2)).toNat
  let rank := (m.read (o + 3)).toNat
  let flags := m.read (o + 4)
  let refresh := 256 * (m.read (o + 6)).toNat + (m.read (o + 7)).toNat
  (1 ≤ id ∧ id ≤ 4094) ∧ (1 ≤ role ∧ role ≤ 3) ∧ (role = 2 → 1 ≤ rank ∧ rank ≤ 14)
    ∧ ¬ (flags.getLsbD 2 = true ∧ flags.getLsbD 3 = true) ∧ (1 ≤ (m.read (o + 5)).toNat ∧ (m.read (o + 5)).toNat ≤ 32)
    ∧ (10 ≤ refresh ∧ refresh ≤ 10000) ∧ (2 ≤ (m.read (o + 8)).toNat ∧ (m.read (o + 8)).toNat ≤ 8) ∧ (m.read (o + 9)).toNat ≤ 100

/-- The role a code of 1..3 stands for (R203). -/
def Role.spelled (code : Nat) : Role := if code = 1 then .home else if code = 2 then .spare else .listen

/-- The declaration at an offset, with the fields its bytes spell (R163, R203). -/
def Memory.declSpelled (m : Memory) (o : Nat) : Decl :=
  let role := (m.read (o + 2)).toNat
  let flags := m.read (o + 4)
  { objectId := BitVec.ofNat 12 (256 * (m.read o).toNat + (m.read (o + 1)).toNat)
    role := .spelled role
    rank := if role = 1 then 0#4 else if role = 2 then BitVec.ofNat 4 (m.read (o + 3)).toNat else 15#4
    takeover := decide (role = 2) && flags.getLsbD 1
    cls := if flags.getLsbD 0 then .urgent else .routine
    notify := if flags.getLsbD 2 then .change else if flags.getLsbD 3 then .every else .none
    maxLength := (m.read (o + 5)).toNat
    refresh := 256 * (m.read (o + 6)).toNat + (m.read (o + 7)).toNat
    staleFactor := (m.read (o + 8)).toNat
    spacing := 10 * (m.read (o + 9)).toNat }

/-- The role codes are 1..3 (R203). -/
theorem Role.ofCode_eq (c : Byte) :
    Role.ofCode c = if 1 ≤ c.toNat ∧ c.toNat ≤ 3 then some (.spelled c.toNat) else none := by
  revert c
  decide

theorem Role.spelled_eq_spare_iff (code : Nat) : Role.spelled code = .spare ↔ code = 2 := by
  unfold Role.spelled
  split
  case isTrue hhome => exact ⟨fun h => (nomatch h), fun h => by omega⟩
  case isFalse =>
    split
    case isTrue hspare => exact ⟨fun _ => hspare, fun _ => rfl⟩
    case isFalse hlisten => exact ⟨fun h => (nomatch h), fun h => absurd h hlisten⟩

/-- The rank the role fixes, by the role's code (R3). -/
theorem Role.rank_spelled (code : Nat) (image : Byte) :
    (Role.spelled code).rank image = if code = 1 then 0#4 else if code = 2 then BitVec.ofNat 4 image.toNat else 15#4 := by
  unfold Role.spelled
  split
  case isTrue => rfl
  case isFalse =>
    split
    case isTrue | isFalse => rfl

/-- The notify code in bits 2 and 3 of the flags; both set is no code (R203). -/
theorem Notify.ofCode_flags (flags : Byte) : Notify.ofCode (flags.extractLsb' 2 2) =
    if flags.getLsbD 2 = true ∧ flags.getLsbD 3 = true then Option.none
    else some (if flags.getLsbD 2 then .change else if flags.getLsbD 3 then .every else .none) := by
  revert flags
  decide

theorem Memory.declAt_noRole {m : Memory} {o : Nat} (h : Role.ofCode (m.read (o + 2)) = none) : m.declAt o = none := by
  simp only [Memory.declAt, h]

theorem Memory.declAt_noNotify {m : Memory} {o : Nat} (h : Notify.ofCode ((m.read (o + 4)).extractLsb' 2 2) = Option.none) :
    m.declAt o = none := by
  cases hrole : Role.ofCode (m.read (o + 2)) with
  | none => exact Memory.declAt_noRole hrole
  | some role => simp only [Memory.declAt, hrole, h]

/-- The declaration at an offset is the one its bytes spell if every field is in range, and none otherwise (R163, R167). -/
theorem Memory.declAt_eq (m : Memory) (o : Nat) [Decidable (m.DeclHolds o)] :
    m.declAt o = if m.DeclHolds o then some (m.declSpelled o) else none := by
  have hcode := Role.ofCode_eq (m.read (o + 2))
  have hbits := Notify.ofCode_flags (m.read (o + 4))
  by_cases hrole : 1 ≤ (m.read (o + 2)).toNat ∧ (m.read (o + 2)).toNat ≤ 3
  case neg =>
    rw [if_neg hrole] at hcode
    exact (Memory.declAt_noRole hcode).trans (if_neg fun ⟨_, h, _⟩ => hrole h).symm
  case pos =>
    by_cases hnotify : (m.read (o + 4)).getLsbD 2 = true ∧ (m.read (o + 4)).getLsbD 3 = true
    case pos =>
      rw [if_pos hnotify] at hbits
      exact (Memory.declAt_noNotify hbits).trans (if_neg fun ⟨_, _, _, h, _⟩ => h hnotify).symm
    case neg =>
      rw [if_pos hrole] at hcode
      rw [if_neg hnotify] at hbits
      simp only [Memory.declAt, hcode, hbits, Memory.toNat_read16, Role.spelled_eq_spare_iff, Role.rank_spelled]
      refine ite_congr ?_ (fun _ => rfl) fun _ => rfl
      simp only [Memory.DeclHolds, hrole, hnotify, and_assoc, not_false_eq_true, true_and]

end Sys2Proof.Machine

/-! ## The statement -/

namespace Sys2Proof

open Sys2Proof.Machine

/-- Settles O30: the checks one after the other, then the run over the declarations, the search for a repeat, and one declaration by whether its
fields are in range. -/
theorem validationReportsTheFirstFailingCheck : Obligations.ValidationReportsTheFirstFailingCheck := by
  classical
  refine ⟨fun m => ?checks, fun m o => ⟨fun hbad => ?outOfRange, fun hgood => ?inRange⟩⟩
  case outOfRange => exact (m.declAt_eq o).trans (if_neg hbad)
  case inRange => exact (m.declAt_eq o).trans (if_pos hgood)
  case checks =>
    have hfault : ∀ f, m.FormatHolds → m.CountHolds → m.stationFault = some f → m.validate = .error (f, 0) :=
      fun f hf hc => Memory.validate_stationFault (Memory.headerFault_none hf hc)
    refine ⟨fun hf => ?format, fun hf hc => ?count, fun hf hc hcheck => ?check, fun hf hc hcheck hstation => ?station,
      fun hf hc hcheck hstation hrate => ?rate, fun hf hc hcheck hstation hrate htiming => ?timing,
      fun hf hc hcheck hstation hrate htiming => ⟨fun k hk hkn hbad hgood => ?entry, fun decls hlength hdecls =>
        ⟨fun hnodup => ?ok, fun k d hk hd hrepeat hnodup => ?repeated⟩⟩⟩
    case format => exact Memory.validate_headerFault (Memory.headerFault_badFormat hf)
    case count => exact Memory.validate_headerFault (Memory.headerFault_badCount hf hc)
    case check => exact hfault _ hf hc (Memory.stationFault_badCheck hcheck)
    case station => exact hfault _ hf hc (Memory.stationFault_badStation hcheck hstation)
    case rate => exact hfault _ hf hc (Memory.stationFault_badRate hcheck hstation hrate)
    case timing => exact hfault _ hf hc (Memory.stationFault_badTiming hcheck hstation hrate htiming)
    all_goals
      have hheader := Memory.headerFault_none hf hc
      have hrecord := Memory.stationFault_none hcheck hstation hrate htiming
    case entry => exact Memory.validate_badEntry hheader hrecord (Memory.declsFrom_one_error hk hkn hbad hgood)
    all_goals
      have hread : m.declsFrom 1 m.entryCount = .ok decls := by
        rw [Memory.entryCount, ← hlength]
        exact Memory.declsFrom_one_ok fun k hk hkn => hdecls k hk (hlength ▸ hkn)
    case ok => exact Memory.validate_ok hheader hrecord hread (firstRepeat_none hnodup 1)
    case repeated => exact Memory.validate_repeated hheader hrecord hread (firstRepeat_at hk hd hrepeat hnodup)

end Sys2Proof
end

section
/-! PROOFS. The Local Port's own commands (R174 to R176): LP's checks as facts about three fields of a request, what SUBMIT and RETIRE do in each
port state, and from these the statements O6 and O7. -/

namespace Sys2Proof.Machine

/-! ## LP's checks -/

/-- The codes the checks name, as the values R204 gives them, and the two RESTART scopes (R176). -/
theorem Request.lpGood_iff (r : Request) : r.lpGood = true ↔
    (1 ≤ r.code.toNat ∧ r.code.toNat ≤ 14)
      ∧ (r.code.toNat = 13 → r.first.toNat = 1 ∨ r.first.toNat = 2)
      ∧ (r.code.toNat = 3 ∨ r.code.toNat = 4 → r.tag ≠ 0#8) := by
  have hrestart : r.code = RequestCode.restart.byte ↔ r.code.toNat = 13 := BitVec.toNat_inj.symm
  have hclaim : r.code = RequestCode.claim.byte ↔ r.code.toNat = 3 := BitVec.toNat_inj.symm
  have hrelease : r.code = RequestCode.release.byte ↔ r.code.toNat = 4 := BitVec.toNat_inj.symm
  have hline : r.first = 1#8 ↔ r.first.toNat = 1 := BitVec.toNat_inj.symm
  have hfull : r.first = 2#8 ↔ r.first.toNat = 2 := BitVec.toNat_inj.symm
  simp only [Request.lpGood, Bool.and_eq_true, Bool.or_eq_true, decide_eq_true_eq, ne_eq, hrestart, hclaim, hrelease, hline, hfull,
    or_assoc, and_assoc]
  simp only [← not_or, ← Decidable.imp_iff_not_or]

/-! ## SUBMIT and RETIRE in each port state -/

/-- A READY port takes a request that passes LP's checks as its working request (R174). -/
theorem State.submitWritten_good {s : State} (h : s.lp.port = .ready) (hgood : (Request.ofArea s.lp.request).lpGood = true) :
    s.submitWritten = { s with lp := { s.lp with port := .working s.lp.request, submitIgnored := false } } := by
  simp only [State.submitWritten, h, hgood, if_true]

/-- A READY port answers a request that fails LP's checks at once (R176). -/
theorem State.submitWritten_bad {s : State} (h : s.lp.port = .ready) (hbad : ¬ (Request.ofArea s.lp.request).lpGood = true) :
    s.submitWritten = { s with lp := { s.lp with
      port := .done ((Request.ofArea s.lp.request).answer .badRequest), submitIgnored := false } } := by
  simp only [State.submitWritten, h, if_neg hbad]

theorem State.submitWritten_ignored {s : State} (h : s.lp.port ≠ .ready) :
    s.submitWritten = { s with lp := { s.lp with submitIgnored := true } } := by
  unfold State.submitWritten
  split
  next hready => exact absurd hready h
  all_goals rfl

/-- Whatever LP's checks say, a SUBMIT that finds the port READY leaves it WORKING or DONE with the flag clear (R174, R176). -/
theorem State.submitWritten_starts {s : State} (h : s.lp.port = .ready) :
    s.submitWritten.lp.port ≠ .ready ∧ s.submitWritten.lp.submitIgnored = false := by
  by_cases hgood : (Request.ofArea s.lp.request).lpGood = true
  · rw [State.submitWritten_good h hgood]
    exact ⟨nofun, rfl⟩
  · rw [State.submitWritten_bad h hgood]
    exact ⟨nofun, rfl⟩

theorem State.retireWritten_done {s : State} {q : Response} (h : s.lp.port = .done q) :
    s.retireWritten = { s with lp := { s.lp with port := .ready } } := by
  simp only [State.retireWritten, h]

theorem State.retireWritten_ignored {s : State} (h : ∀ q, s.lp.port ≠ .done q) : s.retireWritten = s := by
  unfold State.retireWritten
  split
  next q hdone => exact absurd hdone (h q)
  all_goals rfl

/-! ## The two commands with RST_N high -/

theorem exec_submit {s : State} (hr : s.rstLow = false) : exec .submit s = .next s.submitWritten :=
  State.taken_high hr State.submitWritten

theorem exec_submit_ignored {s : State} (hr : s.rstLow = false) (h : s.lp.port ≠ .ready) :
    exec .submit s = .next { s with lp := { s.lp with submitIgnored := true } } := by
  rw [exec_submit hr, State.submitWritten_ignored h]

theorem exec_retire {s : State} (hr : s.rstLow = false) : exec .retire s = .next s.retireWritten :=
  State.taken_high hr State.retireWritten

theorem exec_retire_done {s : State} {q : Response} (hr : s.rstLow = false) (h : s.lp.port = .done q) :
    exec .retire s = .next { s with lp := { s.lp with port := .ready } } := by
  rw [exec_retire hr, State.retireWritten_done h]

theorem exec_retire_ignored {s : State} (hr : s.rstLow = false) (h : ∀ q, s.lp.port ≠ .done q) : exec .retire s = .next s := by
  rw [exec_retire hr, State.retireWritten_ignored h]

end Sys2Proof.Machine

/-! ## The statements -/

namespace Sys2Proof

open Sys2Proof.Machine

/-- Settles O6: SUBMIT by the port state, and in READY by LP's checks on the request area. -/
theorem submitStartsAReadyPortAndIsFlaggedOtherwise : Obligations.SubmitStartsAReadyPortAndIsFlaggedOtherwise := by
  intro s hr
  have hchecks := Request.lpGood_iff (Request.ofArea s.lp.request)
  refine ⟨fun hready => ⟨fun hgood => ?good, fun hbad => ?bad⟩, fun hbusy => ?ignored⟩
  case good => exact (exec_submit hr).trans (congrArg Host.Outcome.next (State.submitWritten_good hready (hchecks.mpr hgood)))
  case bad => exact (exec_submit hr).trans (congrArg Host.Outcome.next (State.submitWritten_bad hready (mt hchecks.mp hbad)))
  case ignored => exact exec_submit_ignored hr hbusy

/-- Settles O7: RETIRE by the port state; a SUBMIT before it in DONE leaves the response to be retired, one after it finds the port READY. -/
theorem retireClearsADoneResponseAndIsIgnoredOtherwise : Obligations.RetireClearsADoneResponseAndIsIgnoredOtherwise := by
  intro s hr
  refine ⟨fun q hdone => ⟨?retired, ?submitFirst, ?retireFirst⟩, fun hready => ?ready, fun area hworking => ?working⟩
  case retired => exact exec_retire_done hr hdone
  case submitFirst =>
    have hbusy : s.lp.port ≠ .ready := fun hready => nomatch hready.symm.trans hdone
    exact ⟨_, exec_submit_ignored hr hbusy, exec_retire_done hr hdone⟩
  case retireFirst =>
    exact ⟨_, _, exec_retire_done hr hdone, exec_submit hr, State.submitWritten_starts rfl⟩
  case ready => exact exec_retire_ignored hr fun q hdone => nomatch hready.symm.trans hdone
  case working => exact exec_retire_ignored hr fun q hdone => nomatch hworking.symm.trans hdone

end Sys2Proof
end

section
/-! PROOFS. The event window (R196, R197): what a pop moves into it, and that no other operation of the part changes it, operation by operation in
the order of the model; from these the statement O8. -/

namespace Sys2Proof.Machine

/-! ## A pop -/

/-- A pop from an empty queue shows a record of kind NONE (R196). -/
theorem State.popEvent_empty {s : State} (hq : s.eu.queue = []) :
    s.popEvent = { s with eu := { s.eu with window := EventRecord.empty } } := by
  unfold State.popEvent
  rw [hq]

/-- A pop with no record lost moves the head into the window (R196). -/
theorem State.popEvent_head {s : State} {r : EventRecord} {rest : List EventRecord} (hq : s.eu.queue = r :: rest) (hl : s.eu.lost = 0#8) :
    s.popEvent = { s with eu := { s.eu with queue := rest, window := r } } := by
  unfold State.popEvent
  rw [hq]
  exact if_pos hl

/-- A pop with records lost puts a LOST record with their count at the tail (R197). -/
theorem State.popEvent_lost {s : State} {r : EventRecord} {rest : List EventRecord} (hq : s.eu.queue = r :: rest) (hl : s.eu.lost ≠ 0#8) :
    s.popEvent = { s with eu := { s.eu with
      queue := rest ++ [⟨.lost s.eu.lost, s.ownId, 0#8, some 0#8, s.eu.clock⟩], window := r, lost := 0#8 } } := by
  unfold State.popEvent
  rw [hq]
  exact if_neg hl

theorem exec_eventNext {s : State} (hr : s.rstLow = false) : exec .eventNext s = .next s.popEvent := State.taken_high hr State.popEvent

/-! ## The shared operations leave the window alone -/

@[simp] theorem State.post_eu_window (s : State) (k : EventKind) (id : BitVec 12) (tag : Byte) (v : Option Byte) :
    (s.post k id tag v).eu.window = s.eu.window := (State.Outside.post s k id tag v).shown

@[simp] theorem State.postStation_eu_window (s : State) (k : EventKind) (tag : Byte) : (s.postStation k tag).eu.window = s.eu.window :=
  (State.Outside.postStation s k tag).shown

@[simp] theorem State.bump_eu_window (s : State) (c : Counter) : (s.bump c).eu.window = s.eu.window := (State.Outside.bump s c).shown

@[simp] theorem State.requestPresence_eu_window (s : State) (st : PresenceStatus) : (s.requestPresence st).eu.window = s.eu.window :=
  (State.Outside.requestPresence s st).shown

@[simp] theorem State.freedRoutine_eu_window (s : State) : s.freedRoutine.eu.window = s.eu.window := (State.Outside.freedRoutine s).shown

@[simp] theorem State.setRow_eu_window (s : State) (n : Nat) (r : PeerRow) : (s.setRow n r).eu.window = s.eu.window := by
  cases n <;> rfl

@[simp] theorem State.enterState_eu_window (s : State) (st : StationState) (c : StationCause) (tag : Byte) :
    (s.enterState st c tag).eu.window = s.eu.window := State.postStation_eu_window _ _ _

@[simp] theorem State.beginListening_eu_window (s : State) : s.beginListening.eu.window = s.eu.window :=
  State.requestPresence_eu_window _ _

@[simp] theorem State.dropPresence_eu_window (s : State) : s.dropPresence.eu.window = s.eu.window := by
  unfold State.dropPresence
  cases s.sc.presence with
  | queued _ => exact State.freedRoutine_eu_window _
  | none | owed _ | inFlight _ _ => rfl

@[simp] theorem State.goOffLine_eu (s : State) : s.goOffLine.eu = s.eu := rfl

@[simp] theorem State.judgeSlots_eu (s : State) : s.judgeSlots.eu = s.eu := by
  unfold State.judgeSlots
  split <;> rfl

@[simp] theorem State.setSlot_eu_window (s : State) (i : Nat) (slot : Slot) : (s.setSlot i slot).eu.window = s.eu.window :=
  (State.Outside.setSlot s i slot).shown

theorem State.withEntry_eu_window {s : State} {i : Nat} {k : Entry → State} (hk : ∀ e, (k e).eu.window = s.eu.window) :
    (s.withEntry i k).eu.window = s.eu.window := by
  unfold State.withEntry
  split
  · rfl
  · exact hk _

/-- A command that is taken leaves the window alone if its effect does, with RST_N at either level. -/
theorem State.taken_eu_window {s t : State} {f : State → State} (hf : ∀ s, (f s).eu.window = s.eu.window) (h : s.taken f = .next t) :
    t.eu.window = s.eu.window := by
  cases hr : s.rstLow with
  | true =>
    obtain rfl := Host.Outcome.next.inj ((State.taken_low hr f).symm.trans h)
    rfl
  | false =>
    obtain rfl := Host.Outcome.next.inj ((State.taken_high hr f).symm.trans h)
    exact hf s

theorem State.withRequest_eu_window {s : State} {c : RequestCode} {k : Request → State} (hk : ∀ r, (k r).eu.window = s.eu.window) :
    (s.withRequest c k).eu.window = s.eu.window := by
  unfold State.withRequest
  split
  · split
    · exact hk _
    · rfl
  all_goals rfl

theorem State.accepting_eu_window {s : State} {c : RequestCode} {k : Request → State} (hk : ∀ r, (k r).eu.window = s.eu.window) :
    (s.accepting c k).eu.window = s.eu.window := by
  refine State.withRequest_eu_window fun r => ?_
  split
  · exact hk r
  · rfl

/-- A request leaves the window alone if it does where it is accepted. -/
theorem State.taken_accepting_eu_window {s t : State} {c : RequestCode} {k : State → Request → State}
    (hk : ∀ s r, (k s r).eu.window = s.eu.window) (h : (s.taken fun s => s.accepting c (k s)) = .next t) : t.eu.window = s.eu.window :=
  State.taken_eu_window (fun s => State.accepting_eu_window (hk s)) h

theorem State.atObject_eu_window {s : State} {r : Request} {k : Nat → Entry → State} (hk : ∀ i e, (k i e).eu.window = s.eu.window) :
    (s.atObject r k).eu.window = s.eu.window := by
  unfold State.atObject
  split
  · rfl
  · split
    · rfl
    · exact hk _ _

/-! ## The Telegram Filter and the Peer Monitor -/

@[simp] theorem State.route_eu (s : State) (t : Telegram) : (s.route t).eu = s.eu := by
  unfold State.route
  split
  · rfl
  · split
    · rfl
    · split <;> rfl

theorem State.deliveredTelegram_eu_window (s : State) : s.deliveredTelegram.eu.window = s.eu.window := by
  unfold State.deliveredTelegram State.filter
  split
  · rfl
  · split
    · exact State.bump_eu_window _ _
    · split
      · rfl
      · dsimp only
        rw [State.route_eu]
        exact State.bump_eu_window _ _

theorem State.capture_eu_window (s : State) : s.capture.eu.window = s.eu.window := by
  unfold State.capture
  split
  · rfl
  · exact State.post_eu_window _ _ _ _ _

theorem State.takeHeard_eu_window {s : State} {fits : Telegram → Bool} {k : State → PeerRow → Telegram → State}
    (hk : ∀ s r t, (k s r t).eu.window = s.eu.window) : (s.takeHeard fits k).eu.window = s.eu.window := by
  unfold State.takeHeard
  split
  · rfl
  · split
    · dsimp only
      split
      · rfl
      · exact hk _ _ _
    · rfl

@[simp] theorem State.postPeer_eu_window (s : State) (d : PeerDetail) (n : Byte) : (s.postPeer d n).eu.window = s.eu.window :=
  State.post_eu_window _ _ _ _ _

theorem State.heard_eu_window (s : State) : s.heard.eu.window = s.eu.window :=
  State.takeHeard_eu_window fun s r t => by
    dsimp only
    split <;> simp

/-- Whether the row was PRESENT decides JOINED, its epoch RESTARTED with the notice; none of it touches the window. -/
theorem State.presenceHeard_eu_window (s : State) : s.presenceHeard.eu.window = s.eu.window :=
  State.takeHeard_eu_window fun s r t => by
    have hjoined : ∀ u : State, (if r.present then u else u.postPeer .joined t.source).eu.window = u.eu.window := fun u => by
      split
      · rfl
      · exact State.postPeer_eu_window _ _ _
    have hrow := (hjoined _).trans (s.setRow_eu_window t.source.toNat ⟨true, some t.objectId, t.period, some (3 * t.period)⟩)
    cases r.epoch with
    | none => exact hrow
    | some old =>
      dsimp only
      split
      · exact hrow
      · rw [State.giveNotice_eu, State.postPeer_eu_window]
        exact hrow

theorem State.leavingHeard_eu_window (s : State) : s.leavingHeard.eu.window = s.eu.window :=
  State.takeHeard_eu_window fun s r t => by simp

/-! ## The Image Loader -/

@[simp] theorem State.imageLoaded_eu_window (s : State) (im : Image) (tag : Byte) : (s.imageLoaded im tag).eu.window = s.eu.window := by
  have hinstall : (s.install im).eu = s.eu := rfl
  unfold State.imageLoaded
  split <;> simp [hinstall]

@[simp] theorem State.imageFailed_eu_window (s : State) (f : FaultCode) (n : Nat) (tag : Byte) :
    (s.imageFailed f n tag).eu.window = s.eu.window := State.post_eu_window _ _ _ _ _

@[simp] theorem State.validated_eu_window (s : State) (tag : Byte) : (s.validated tag).eu.window = s.eu.window := by
  unfold State.validated
  split
  · exact State.imageLoaded_eu_window _ _ _
  · exact State.imageFailed_eu_window _ _ _ _

theorem State.headerRead_eu_window (s : State) (bytes : List Byte) : (s.headerRead bytes).eu.window = s.eu.window := by
  unfold State.headerRead
  split
  · split
    · dsimp only
      split <;> simp
    · rfl
  all_goals rfl

theorem State.remainderRead_eu_window (s : State) (bytes : List Byte) : (s.remainderRead bytes).eu.window = s.eu.window := by
  unfold State.remainderRead
  split
  · split <;> simp
  all_goals rfl

@[simp] theorem State.attemptFailedAfter_eu_window (s : State) (n : Nat) : (s.attemptFailedAfter n).eu.window = s.eu.window := by
  unfold State.attemptFailedAfter
  split <;> simp

theorem State.attemptFailed_eu_window (s : State) : s.attemptFailed.eu.window = s.eu.window := by
  unfold State.attemptFailed
  split
  · exact State.attemptFailedAfter_eu_window _ _
  · exact State.attemptFailedAfter_eu_window _ _
  all_goals rfl

theorem State.attemptWaitExpired_eu_window (s : State) : s.attemptWaitExpired.eu.window = s.eu.window := by
  unfold State.attemptWaitExpired
  split <;> rfl

@[simp] theorem State.loadBytes_eu (s : State) (r : Request) : (s.loadBytes r).eu = s.eu := rfl

theorem State.loadTaken_eu_window (s : State) (r : Request) : (s.loadTaken r).eu.window = s.eu.window := by
  unfold State.loadTaken
  split <;> rfl

theorem State.loadFinishTaken_eu_window (s : State) (r : Request) : (s.loadFinishTaken r).eu.window = s.eu.window := by
  unfold State.loadFinishTaken
  split
  · rfl
  · dsimp only
    split <;> simp

theorem State.load_eu_window (s : State) :
    (s.withRequest .load fun r => if r.finish then s else s.accepting .load s.loadTaken).eu.window = s.eu.window :=
  State.withRequest_eu_window fun r => by
    split
    · rfl
    · exact State.accepting_eu_window s.loadTaken_eu_window

theorem State.loadFinish_eu_window (s : State) :
    (s.withRequest .load fun r => if r.finish then s.accepting .load s.loadFinishTaken else s).eu.window = s.eu.window :=
  State.withRequest_eu_window fun r => by
    split
    · exact State.accepting_eu_window s.loadFinishTaken_eu_window
    · rfl

/-! ## The Line Controller -/

theorem State.lineQuiet_eu_window (s : State) : s.lineQuiet.eu.window = s.eu.window := by
  unfold State.lineQuiet
  split <;> rfl

theorem State.lineBusy_eu_window (s : State) : s.lineBusy.eu.window = s.eu.window := by
  unfold State.lineBusy
  split <;> rfl

theorem State.takeUrgent_eu_window (s : State) (i : Nat) (rest : List Nat) : (s.takeUrgent i rest).eu.window = s.eu.window :=
  State.withEntry_eu_window fun e => by
    split
    · exact (State.Outside.offerUrgent _).shown.trans (State.setSlot_eu_window _ _ _)
    all_goals rfl

theorem State.takeRoutine_eu_window (s : State) (r : Ref) (rest : List Ref) : (s.takeRoutine r rest).eu.window = s.eu.window := by
  cases r with
  | entry i =>
    refine State.withEntry_eu_window fun e => ?_
    split
    · exact (State.freedRoutine_eu_window _).trans (State.setSlot_eu_window _ _ _)
    all_goals rfl
  | presence =>
    unfold State.takeRoutine
    dsimp only
    split
    · exact State.freedRoutine_eu_window _
    all_goals rfl

theorem State.take_eu_window (s : State) (age : Nat) : (s.take age).eu.window = s.eu.window := by
  unfold State.take
  split
  · split
    · exact State.takeUrgent_eu_window _ _ _
    · split
      · rfl
      · split
        · exact State.takeRoutine_eu_window _ _ _
        · rfl
  · rfl

theorem State.retryAttempt_eu_window (s : State) (age : Nat) : (s.retryAttempt age).eu.window = s.eu.window := by
  unfold State.retryAttempt
  split
  · split <;> rfl
  all_goals rfl

@[simp] theorem State.report_eu (s : State) (r : Ref) (o : TxOutcome) : (s.report r o).eu = s.eu := by
  cases r <;> rfl

@[simp] theorem State.recover_eu_window (s : State) : s.recover.eu.window = s.eu.window := by
  unfold State.recover
  split <;> simp

theorem State.sent_eu_window (s : State) : s.sent.eu.window = s.eu.window := by
  unfold State.sent
  split
  · simp
  all_goals rfl

theorem State.collide_eu_window (s : State) (bit : Nat) (level : Bool) : (s.collide bit level).eu.window = s.eu.window := by
  unfold State.collide
  split
  · split
    · split <;> simp
    · rfl
  all_goals rfl

theorem State.abandon_eu_window (s : State) (h : Held) : (s.abandon h).eu.window = s.eu.window := by
  unfold State.abandon
  dsimp only
  split <;> simp

theorem State.jamEnd_eu_window (s : State) : s.jamEnd.eu.window = s.eu.window := by
  unfold State.jamEnd
  split
  · split
    · rfl
    · exact State.abandon_eu_window _ _
  all_goals rfl

@[simp] theorem State.receivedBytes_eu_window (s : State) (bytes : List Byte) : (s.receivedBytes bytes).eu.window = s.eu.window := by
  unfold State.receivedBytes
  split <;> simp

theorem State.reception_eu_window (s : State) (levels : List Bool) : (s.reception levels).eu.window = s.eu.window := by
  unfold State.reception
  split
  · split
    · exact State.bump_eu_window _ _
    · exact State.receivedBytes_eu_window _ _
    all_goals rfl
  · rfl

/-! ## The Local Port -/

theorem State.submitWritten_eu_window (s : State) : s.submitWritten.eu.window = s.eu.window := by
  unfold State.submitWritten
  split <;> rfl

theorem State.retireWritten_eu_window (s : State) : s.retireWritten.eu.window = s.eu.window := by
  unfold State.retireWritten
  split <;> rfl

/-- Of the window's addresses only EVENT NEXT, 51, reaches the event queue (R204). -/
theorem State.portWritten_eu_window (s : State) {addr : BitVec 6} (ha : addr.toNat ≠ 51) (byte : Byte) :
    (s.portWritten addr byte).eu.window = s.eu.window := by
  unfold State.portWritten
  dsimp only
  rw [if_neg ha]
  split
  · rfl
  · split
    · exact State.submitWritten_eu_window s
    · split
      · exact State.retireWritten_eu_window s
      · rfl

/-! ## What OD takes from the other blocks -/

theorem State.takeRouted_eu_window {s : State} {kind : TelegramKind} {k : State → Nat → Entry → Telegram → State}
    (hk : ∀ s i e t, (k s i e t).eu.window = s.eu.window) : (s.takeRouted kind k).eu.window = s.eu.window := by
  unfold State.takeRouted
  split
  · rfl
  · split
    · dsimp only
      split
      · rfl
      · exact State.withEntry_eu_window fun e => hk _ _ _ _
    · rfl

theorem State.Outside.queryAtEntry (s : State) (i : Nat) (e : Entry) (t : Telegram) : s.Outside (s.queryAtEntry i e t) := by
  unfold State.queryAtEntry
  split
  · split
    · exact State.Outside.refl s
    · exact State.Outside.requestAnswer s i
  all_goals exact State.Outside.refl s

theorem State.publishReceived_eu_window (s : State) : s.publishReceived.eu.window = s.eu.window :=
  State.takeRouted_eu_window fun s i e t => by rw [State.judgeSlots_eu, (State.Outside.publishAtEntry s i e t).shown]

theorem State.claimReceived_eu_window (s : State) : s.claimReceived.eu.window = s.eu.window :=
  State.takeRouted_eu_window fun s i e t => (State.Outside.claimAtEntry s i e t).shown

theorem State.yieldReceived_eu_window (s : State) : s.yieldReceived.eu.window = s.eu.window :=
  State.takeRouted_eu_window fun s i e t => (State.Outside.yieldAtEntry s i e t).shown

theorem State.queryReceived_eu_window (s : State) : s.queryReceived.eu.window = s.eu.window :=
  State.takeRouted_eu_window fun s i e t => (State.Outside.queryAtEntry s i e t).shown

theorem State.peerNotice_eu_window (s : State) : s.peerNotice.eu.window = s.eu.window := by
  unfold State.peerNotice
  split
  · rfl
  · exact (State.Outside.noticeAtOd _ _).shown

theorem State.outcomeReport_eu_window (s : State) : s.outcomeReport.eu.window = s.eu.window := by
  unfold State.outcomeReport
  split
  · rfl
  · rw [State.judgeSlots_eu, (State.Outside.outcomeAtEntry _ _ _).shown]

/-! ## The requests at OD, PM, TF and EU -/

theorem State.readTaken_eu_window (s : State) (r : Request) : (s.readTaken r).eu.window = s.eu.window :=
  State.atObject_eu_window fun _ _ => rfl

theorem State.writeValue_eu_window (s : State) (r : Request) (i : Nat) (e : Entry) : (s.writeValue r i e).eu.window = s.eu.window := by
  have hvalue : s.Outside (s.modify i fun e' => { e' with value := r.bytes, version := some (nextVersion e.version) }) :=
    State.Outside.modify s i fun _ => rfl
  exact (hvalue.trans (State.Outside.requestChange _ i)).shown

theorem State.writeTaken_eu_window (s : State) (r : Request) : (s.writeTaken r).eu.window = s.eu.window :=
  State.atObject_eu_window fun i e => by
    split
    · split
      · rfl
      · exact State.writeValue_eu_window s r i e
    all_goals rfl

/-- Recording the tag of a request at its entry. -/
theorem State.Outside.pendingTag (s : State) (i : Nat) (tag : Option Byte) : s.Outside (s.modify i fun e => { e with pendingTag := tag }) :=
  State.Outside.modify s i fun _ => rfl

theorem State.claimTaken_eu_window (s : State) (r : Request) : (s.claimTaken r).eu.window = s.eu.window :=
  State.atObject_eu_window fun i e => by
    split
    · rfl
    · split
      · rfl
      · exact ((State.Outside.pendingTag s i _).trans (State.Outside.startClaim _ i)).shown

theorem State.releaseTaken_eu_window (s : State) (r : Request) : (s.releaseTaken r).eu.window = s.eu.window :=
  State.atObject_eu_window fun i e => by
    split
    · exact ((State.Outside.pendingTag s i _).trans (State.Outside.startYield _ i none)).shown
    · exact (State.Outside.cancelClaim s i).shown
    all_goals rfl

theorem State.queryTaken_eu_window (s : State) (r : Request) : (s.queryTaken r).eu.window = s.eu.window :=
  State.atObject_eu_window fun i e => by
    split
    · rfl
    · exact (State.Outside.requestQuery s i).shown

theorem State.peerTaken_eu_window (s : State) (r : Request) : (s.peerTaken r).eu.window = s.eu.window := by
  unfold State.peerTaken
  split
  · rfl
  · split <;> rfl

theorem State.takeUnlistedTaken_eu_window (s : State) (r : Request) : (s.takeUnlistedTaken r).eu.window = s.eu.window := by
  unfold State.takeUnlistedTaken
  split <;> rfl

theorem State.countersTaken_eu_window (s : State) (r : Request) : (s.countersTaken r).eu.window = s.eu.window := rfl

theorem State.attendTaken_eu_window (s : State) (r : Request) : (s.attendTaken r).eu.window = s.eu.window := rfl

/-! ## The Station Controller -/

theorem State.joinTaken_eu_window (s : State) (r : Request) : (s.joinTaken r).eu.window = s.eu.window := by
  unfold State.joinTaken
  simp

@[simp] theorem State.startPresence_eu_window (s : State) : s.startPresence.eu.window = s.eu.window :=
  State.requestPresence_eu_window _ _

@[simp] theorem State.joinActions_eu_window (s : State) : s.joinActions.eu.window = s.eu.window := (State.Outside.joinActions s).shown

theorem State.joinListenExpired_eu_window (s : State) (presenceFirst : Bool) : (s.joinListenExpired presenceFirst).eu.window = s.eu.window := by
  have hsweep : s.joinSweep.eu.window = s.eu.window := (State.Outside.joinSweep s).shown
  unfold State.joinListenExpired
  dsimp only
  split
  · split <;> simp [hsweep]
  · rfl

theorem State.presenceExpired_eu_window (s : State) : s.presenceExpired.eu.window = s.eu.window := by
  unfold State.presenceExpired
  dsimp only
  split
  · split
    · exact State.requestPresence_eu_window _ _
    all_goals rfl
  · rfl

theorem State.leaveTaken_eu_window (s : State) (r : Request) : (s.leaveTaken r).eu.window = s.eu.window := by
  have hentries : ∀ u : State, (u.eachEntry State.leaveEntry).eu.window = u.eu.window := fun u =>
    (State.Outside.eachEntry State.Outside.leaveEntry u).shown
  unfold State.leaveTaken State.leaveActive State.leaveQuiet
  split <;> simp [hentries]

theorem State.slotsClearTaken_eu_window (s : State) : s.slotsClearTaken.eu.window = s.eu.window := by
  unfold State.slotsClearTaken
  dsimp only
  split
  · split
    · exact State.requestPresence_eu_window _ _
    · rfl
  · rfl

@[simp] theorem State.leaveDone_eu_window (s : State) : s.leaveDone.eu.window = s.eu.window := by
  unfold State.leaveDone
  simp

theorem State.presenceOutcome_eu_window (s : State) : s.presenceOutcome.eu.window = s.eu.window := by
  unfold State.presenceOutcome
  dsimp only
  split
  · rfl
  · split
    · split
      · exact State.leaveDone_eu_window _
      · split
        · rfl
        · exact State.requestPresence_eu_window _ _
    all_goals rfl

@[simp] theorem State.loseAll_eu_window (s : State) (c : LossCause) : (s.loseAll c).eu.window = s.eu.window := (State.Outside.loseAll s c).shown

@[simp] theorem State.mute_eu_window (s : State) : s.mute.eu.window = s.eu.window := by
  unfold State.mute
  simp

theorem State.mutedTaken_eu_window (s : State) : s.mutedTaken.eu.window = s.eu.window := by
  unfold State.mutedTaken
  dsimp only
  split
  · split
    · exact State.mute_eu_window _
    · rfl
  · rfl

theorem State.muteExpired_eu_window (s : State) : s.muteExpired.eu.window = s.eu.window := by
  unfold State.muteExpired
  split <;> simp

@[simp] theorem State.faultStation_eu_window (s : State) : s.faultStation.eu.window = s.eu.window := by
  unfold State.faultStation
  simp

theorem State.duplicateTaken_eu_window (s : State) : s.duplicateTaken.eu.window = s.eu.window := by
  unfold State.duplicateTaken
  split
  · rfl
  · dsimp only
    split <;> simp

theorem State.restartLineTaken_eu_window (s : State) (r : Request) : (s.restartLineTaken r).eu.window = s.eu.window := by
  have hentries : ∀ u : State, (u.eachEntry State.lineRestartEntry).eu.window = u.eu.window := fun u =>
    (State.Outside.eachEntry State.Outside.lineRestartEntry u).shown
  unfold State.restartLineTaken
  simp [hentries]

theorem State.restartLine_eu_window (s : State) :
    (s.withRequest .restart fun r => if r.first = 1#8 then s.accepting .restart s.restartLineTaken else s).eu.window = s.eu.window :=
  State.withRequest_eu_window fun r => by
    split
    · exact State.accepting_eu_window s.restartLineTaken_eu_window
    · rfl

theorem State.status_eu_window (s : State) (r : Request) : (s.complete (s.statusResponse r)).eu.window = s.eu.window := rfl

/-! ## The timebase and the silence deadlines -/

theorem State.silenceExpired_eu_window (s : State) (n : Nat) : (s.silenceExpired n).eu.window = s.eu.window := by
  unfold State.silenceExpired
  split
  · rfl
  · split <;> simp

theorem State.tick_eu_window (s : State) : s.tick.eu.window = s.eu.window := rfl

/-! ## Every command -/

/-- No command but EVENT NEXT, in either form, and a full restart changes the event window (R196). -/
theorem exec_eu_window {c : Instr} {s t : State} (h : exec c s = .next t) (hpower : c ≠ .powerUp) (hrelease : c ≠ .rstNRelease)
    (hfull : c ≠ .restartFull) (hnext : c ≠ .eventNext) (haddr : ∀ addr byte, c = .portWrite addr byte → addr.toNat ≠ 51) :
    t.eu.window = s.eu.window := by
  cases c with
  | powerUp => exact absurd rfl hpower
  | rstNRelease => exact absurd rfl hrelease
  | restartFull => exact absurd rfl hfull
  | eventNext => exact absurd rfl hnext
  | rstNAssert => exact congrArg (·.eu.window) (Host.Outcome.next.inj h).symm
  | portWrite addr byte => exact State.taken_eu_window (·.portWritten_eu_window (haddr addr byte rfl) byte) h
  | submit => exact State.taken_eu_window State.submitWritten_eu_window h
  | retire => exact State.taken_eu_window State.retireWritten_eu_window h
  | read => exact State.taken_accepting_eu_window State.readTaken_eu_window h
  | write => exact State.taken_accepting_eu_window State.writeTaken_eu_window h
  | claim => exact State.taken_accepting_eu_window State.claimTaken_eu_window h
  | release => exact State.taken_accepting_eu_window State.releaseTaken_eu_window h
  | query => exact State.taken_accepting_eu_window State.queryTaken_eu_window h
  | peer => exact State.taken_accepting_eu_window State.peerTaken_eu_window h
  | status => exact State.taken_accepting_eu_window State.status_eu_window h
  | counters => exact State.taken_accepting_eu_window State.countersTaken_eu_window h
  | takeUnlisted => exact State.taken_accepting_eu_window State.takeUnlistedTaken_eu_window h
  | attend => exact State.taken_accepting_eu_window State.attendTaken_eu_window h
  | join => exact State.taken_accepting_eu_window State.joinTaken_eu_window h
  | leave => exact State.taken_accepting_eu_window State.leaveTaken_eu_window h
  | restartLine => exact State.taken_eu_window State.restartLine_eu_window h
  | load => exact State.taken_eu_window State.load_eu_window h
  | loadFinish => exact State.taken_eu_window State.loadFinish_eu_window h
  | readHeader bytes => exact State.taken_eu_window (·.headerRead_eu_window bytes) h
  | readRemainder bytes => exact State.taken_eu_window (·.remainderRead_eu_window bytes) h
  | attemptFailed => exact State.taken_eu_window State.attemptFailed_eu_window h
  | attemptWaitExpiry => exact State.taken_eu_window State.attemptWaitExpired_eu_window h
  | lineQuiet => exact State.taken_eu_window State.lineQuiet_eu_window h
  | lineBusy => exact State.taken_eu_window State.lineBusy_eu_window h
  | take age => exact State.taken_eu_window (·.take_eu_window age) h
  | retryAttempt age => exact State.taken_eu_window (·.retryAttempt_eu_window age) h
  | sent => exact State.taken_eu_window State.sent_eu_window h
  | collision bit level => exact State.taken_eu_window (·.collide_eu_window bit level) h
  | jamEnd => exact State.taken_eu_window State.jamEnd_eu_window h
  | reception levels => exact State.taken_eu_window (·.reception_eu_window levels) h
  | deliveredTelegram => exact State.taken_eu_window State.deliveredTelegram_eu_window h
  | duplicate => exact State.taken_eu_window State.duplicateTaken_eu_window h
  | capture => exact State.taken_eu_window State.capture_eu_window h
  | heard => exact State.taken_eu_window State.heard_eu_window h
  | presenceHeard => exact State.taken_eu_window State.presenceHeard_eu_window h
  | leavingPresenceHeard => exact State.taken_eu_window State.leavingHeard_eu_window h
  | peerNotice => exact State.taken_eu_window State.peerNotice_eu_window h
  | publishReceived => exact State.taken_eu_window State.publishReceived_eu_window h
  | claimReceived => exact State.taken_eu_window State.claimReceived_eu_window h
  | yieldReceived => exact State.taken_eu_window State.yieldReceived_eu_window h
  | queryReceived => exact State.taken_eu_window State.queryReceived_eu_window h
  | outcomeReport => exact State.taken_eu_window State.outcomeReport_eu_window h
  | slotsClearNotice => exact State.taken_eu_window State.slotsClearTaken_eu_window h
  | presenceOutcome => exact State.taken_eu_window State.presenceOutcome_eu_window h
  | mutedReport => exact State.taken_eu_window State.mutedTaken_eu_window h
  | freshnessDeadlineExpiry index => exact State.taken_eu_window (fun s => (State.Outside.freshnessExpired s index).shown) h
  | refreshTimerExpiry index => exact State.taken_eu_window (fun s => (State.Outside.refreshExpired s index).shown) h
  | spacingTimerExpiry index => exact State.taken_eu_window (fun s => (State.Outside.spacingExpired s index).shown) h
  | claimWindowExpiry index => exact State.taken_eu_window (fun s => (State.Outside.windowExpired s index).shown) h
  | takeoverTimerExpiry index => exact State.taken_eu_window (fun s => (State.Outside.takeoverExpired s index).shown) h
  | silenceDeadlineExpiry station => exact State.taken_eu_window (·.silenceExpired_eu_window station) h
  | joinListenExpiry presenceFirst => exact State.taken_eu_window (·.joinListenExpired_eu_window presenceFirst) h
  | presenceTimerExpiry => exact State.taken_eu_window State.presenceExpired_eu_window h
  | muteTimerExpiry => exact State.taken_eu_window State.muteExpired_eu_window h
  | millisecondTick => exact State.taken_eu_window State.tick_eu_window h

end Sys2Proof.Machine

/-! ## The statement -/

namespace Sys2Proof

open Sys2Proof.Machine

/-- Settles O8: EVENT NEXT is the pop, by whether the queue is empty and whether records were lost; every other command by the operation it runs. -/
theorem eventNextMovesTheHeadIntoTheWindow : Obligations.EventNextMovesTheHeadIntoTheWindow := by
  refine ⟨fun s hr => ⟨fun hq => ?empty, fun r rest hq => ⟨fun hl => ?head, fun hl => ?lost⟩⟩, fun c s t => exec_eu_window⟩
  all_goals refine (exec_eventNext hr).trans (congrArg Host.Outcome.next ?_)
  case empty => exact State.popEvent_empty hq
  case head => exact State.popEvent_head hq hl
  case lost => exact State.popEvent_lost hq hl

end Sys2Proof
end

section
/-! PROOFS. The operations every block shares: a posting and an increment (R195, R199), an append and the BACKLOG crossings (R133, R138), the request
and the drop of the PRESENCE (R85, R89), and from these the statements O9, O27 and O51. -/

namespace Sys2Proof.Machine

/-! ## Postings and increments -/

/-- A posting at a full queue whose lost count is at its limit changes nothing (R195). -/
theorem State.post_saturated {s : State} (hq : 32 ≤ s.eu.queue.length) (hl : s.eu.lost = 255#8) (k : EventKind) (id : BitVec 12) (tag : Byte)
    (v : Option Byte) : s.post k id tag v = s := by
  rw [s.post_full k id tag v (Nat.not_lt.mpr hq), if_pos hl, ← hl]

/-- A posting at a full queue counts one more lost below the limit (R195). -/
theorem State.post_lost {s : State} (hq : 32 ≤ s.eu.queue.length) (hl : s.eu.lost ≠ 255#8) (k : EventKind) (id : BitVec 12) (tag : Byte)
    (v : Option Byte) : s.post k id tag v = { s with eu := { s.eu with lost := s.eu.lost + 1#8 } } := by
  rw [s.post_full k id tag v (Nat.not_lt.mpr hq), if_neg hl]

/-- The state with one counter a step higher. -/
def State.counted (s : State) (k : Counter) : State :=
  { s with eu := { s.eu with counters := s.eu.counters.set k (s.eu.counters.get k + 1#16) } }

/-- A counter at its limit stays (R199). -/
theorem State.bump_saturated {s : State} {k : Counter} (h : s.eu.counters.get k = 65535#16) : s.bump k = s := if_pos h

/-- A counter below its limit rises by one, and HARVEST is posted once, at 49152 with the flag armed (R199). -/
theorem State.bump_counts {s : State} {k : Counter} (h : s.eu.counters.get k ≠ 65535#16) :
    s.bump k = if s.eu.counters.get k + 1#16 = Config.harvestMark ∧ s.eu.harvestArmed = true then
      { s.counted k with eu := { (s.counted k).eu with harvestArmed := false } }.post .harvest s.ownId 0#8 (some 0#8) else s.counted k :=
  if_neg h

/-- The value from which an increment reaches the HARVEST mark. -/
theorem harvest_mark_iff (old : BitVec 16) : old + 1#16 = Config.harvestMark ↔ old.toNat = 49151 := by
  rw [← BitVec.toNat_inj, BitVec.toNat_add]
  simp only [BitVec.toNat_ofNat, Nat.reducePow]
  have := old.isLt
  omega

/-! ## The append and BACKLOG -/

/-- An URGENT telegram takes the tail of its queue while the queue has a place (R133). -/
theorem State.append_urgent {s : State} {i : Nat} {e : Entry} {o : Outbound} (h : s.entry? i = some e) (hc : o.cls = .urgent)
    (hq : s.ts.urgent.length < Config.urgentCapacity) :
    s.append i o = { s.put i { e with slot := .queued o } with ts := { s.ts with urgent := s.ts.urgent ++ [i] } } := by
  unfold State.append
  rw [hc, State.setSlot_eq_put h]
  exact if_pos hq

/-- An URGENT telegram is owed while its queue is full (R133). -/
theorem State.append_urgentOwed {s : State} {i : Nat} {e : Entry} {o : Outbound} (h : s.entry? i = some e) (hc : o.cls = .urgent)
    (hq : Config.urgentCapacity ≤ s.ts.urgent.length) :
    s.append i o = { s.put i { e with slot := .owed o } with
      od := { (s.put i { e with slot := .owed o }).od with urgentOwed := s.od.urgentOwed ++ [i] } } := by
  unfold State.append
  rw [hc]
  dsimp only
  rw [if_neg (Nat.not_lt.mpr hq), State.setSlot_eq_put h]
  rfl

/-- A ROUTINE telegram takes the tail of its queue while the queue has a place, and BACKLOG is judged (R133, R138). -/
theorem State.append_routine {s : State} {i : Nat} {e : Entry} {o : Outbound} (h : s.entry? i = some e) (hc : o.cls = .routine)
    (hq : s.ts.routine.length < Config.routineCapacity) : s.append i o = (s.put i { e with slot := .queued o }).joinRoutine (.entry i) := by
  unfold State.append
  rw [hc, State.setSlot_eq_put h]
  exact if_pos hq

/-- A ROUTINE telegram is owed while its queue is full (R133). -/
theorem State.append_routineOwed {s : State} {i : Nat} {e : Entry} {o : Outbound} (h : s.entry? i = some e) (hc : o.cls = .routine)
    (hq : Config.routineCapacity ≤ s.ts.routine.length) :
    s.append i o = { s.put i { e with slot := .owed o } with
      od := { (s.put i { e with slot := .owed o }).od with routineOwed := s.od.routineOwed ++ [i] } } := by
  unfold State.append
  rw [hc]
  dsimp only
  rw [if_neg (Nat.not_lt.mpr hq), State.setSlot_eq_put h]
  rfl

/-- The BACKLOG crossing made, if any, is marked and posted (R138). -/
theorem State.judgeBacklog_eq (s : State) : s.judgeBacklog = match backlogCrossing s.ts.backlog s.ts.routine.length with
    | none => s
    | some d => { s with ts := { s.ts with backlog := decide (d = BacklogDetail.entered) } }.post (.backlog d) s.ownId 0#8 (some 0#8) := by
  unfold State.judgeBacklog
  cases backlogCrossing s.ts.backlog s.ts.routine.length with
  | none => rfl
  | some d => cases d <;> rfl

/-- BACKLOG is entered from 12 on while it is clear, cleared up to 4 while it is set, and otherwise stays (R138). -/
theorem backlogCrossing_eq (backlog : Bool) (n : Nat) : backlogCrossing backlog n =
    if backlog = false ∧ 12 ≤ n then some .entered else if backlog = true ∧ n ≤ 4 then some .cleared else none := by
  cases backlog <;> simp [backlogCrossing]

/-! ## The PRESENCE -/

/-- A PRESENCE requested at an empty record joins the ROUTINE queue or is owed (R85). -/
theorem State.requestPresence_none {s : State} (h : s.sc.presence = .none) (st : PresenceStatus) :
    s.requestPresence st = if s.ts.routine.length < Config.routineCapacity
      then { s with sc := { s.sc with presence := .queued st } }.joinRoutine .presence
      else { s with sc := { s.sc with presence := .owed st } } := by
  unfold State.requestPresence
  rw [h]

/-- A PRESENCE on its way takes the new status in place, or as follow-up once it is in flight (R85). -/
theorem State.requestPresence_pending {s : State} (h : s.sc.presence ≠ .none) (st : PresenceStatus) :
    s.requestPresence st = { s with sc := { s.sc with presence := match s.sc.presence with
      | .none => .none
      | .queued _ => .queued st
      | .owed _ => .owed st
      | .inFlight old _ => .inFlight old (some st) } } := by
  unfold State.requestPresence
  cases hp : s.sc.presence with
  | none => exact absurd hp h
  | queued _ | owed _ | inFlight _ _ => rfl

/-- Entry to DETACHED takes a QUEUED PRESENCE out of the ROUTINE queue (R89). -/
theorem State.dropPresence_queued {s : State} {old : PresenceStatus} (h : s.sc.presence = .queued old) :
    s.dropPresence = { s with
      sc := { s.sc with presence := .none }
      paths := { s.paths with presenceReport := none }
      ts := { s.ts with routine := s.ts.routine.erase Ref.presence } }.freedRoutine := by
  unfold State.dropPresence
  rw [h]

/-- Entry to DETACHED drops any other PRESENCE with no trace in the queues (R89). -/
theorem State.dropPresence_other {s : State} (h : ∀ old, s.sc.presence ≠ .queued old) :
    s.dropPresence = { s with sc := { s.sc with presence := .none }, paths := { s.paths with presenceReport := none } } := by
  unfold State.dropPresence
  cases hp : s.sc.presence with
  | queued old => exact absurd hp (h old)
  | none | owed _ | inFlight _ _ => rfl

end Sys2Proof.Machine

/-! ## The statements -/

namespace Sys2Proof

open Sys2Proof.Machine

/-- Settles O9: the posting by the room in the queue and the lost count, the increment by the counter's value and the flag. -/
theorem postingStampsARecordAndCountingHarvestsOnce : Obligations.PostingStampsARecordAndCountingHarvestsOnce := by
  refine ⟨fun s kind id tag v => ⟨s.post_room kind id tag v, fun hq hl => ?lost, fun hq hl => ?saturated⟩, fun s k => ?counter⟩
  case lost =>
    refine State.post_lost hq (fun h => ?_) kind id tag v
    rw [h] at hl
    exact absurd hl (by decide)
  case saturated => exact State.post_saturated hq (BitVec.eq_of_toNat_eq hl) kind id tag v
  case counter =>
    intro old counted
    have hlimit : old = 65535#16 ↔ old.toNat = 65535 := BitVec.toNat_inj.symm
    have hmark := harvest_mark_iff old
    refine ⟨fun h => State.bump_saturated (hlimit.mpr h), fun h hnot => ?plain, fun h harmed => ?harvest, fun v => ?same, fun j v hj => ?other⟩
    case plain => exact (State.bump_counts (mt hlimit.mp h)).trans (if_neg (by rw [hmark]; exact hnot))
    case harvest => exact (State.bump_counts (mt hlimit.mp (by omega))).trans (if_pos ⟨hmark.mpr h, harmed⟩)
    case same => exact (Counters.get_set _ k k v).trans (if_pos rfl)
    case other => exact (Counters.get_set _ k j v).trans (if_neg hj)

/-- Settles O27: the request by the state of the record and the room in the ROUTINE queue, the drop by whether the record is QUEUED. -/
theorem aRequestedPresenceMeetsThePresenceRecord : Obligations.ARequestedPresenceMeetsThePresenceRecord := by
  intro s st
  refine ⟨fun h hq => ?joins, fun h hq => ?owed, fun old h => ?queued, fun old h => ?stillOwed, fun old follow h => ?inFlight,
    fun old h => State.dropPresence_queued h, fun h => State.dropPresence_other h⟩
  case joins => exact (State.requestPresence_none h st).trans (if_pos hq)
  case owed => exact (State.requestPresence_none h st).trans (if_neg (Nat.not_lt.mpr hq))
  case queued | stillOwed | inFlight => rw [State.requestPresence_pending (by simp [h]), h]

/-- Settles O51: the append by the class and the room in its queue, BACKLOG by its value and the occupancy. -/
theorem anAppendTakesAPlaceOrIsOwed : Obligations.AnAppendTakesAPlaceOrIsOwed := by
  refine ⟨fun s i e o h => ⟨State.append_urgent h, State.append_urgentOwed h, State.append_routine h, State.append_routineOwed h⟩,
    fun s => ?backlog⟩
  case backlog =>
    rw [State.judgeBacklog_eq, backlogCrossing_eq]
    refine ⟨fun hb hn => ?entered, fun hb hn => ?clear, fun hb hn => ?set, fun hb hn => ?cleared⟩
    case entered => simp [hb, hn]
    case clear => simp [hb, show ¬ 12 ≤ s.ts.routine.length by omega]
    case set => simp [hb, show ¬ s.ts.routine.length ≤ 4 by omega]
    case cleared => simp [hb, hn]

end Sys2Proof
end

section
/-! PROOFS. A claim at one entry, from its start to its win or its return (R6, R28, R29, R35 to R37, R51, R52): an equation for each operation in each
case it distinguishes, and from these the statements O48 and O50. -/

namespace Sys2Proof.Machine

/-! ## Records at an entry just replaced -/

/-- Several records of an entry, each with its object id and the version it holds, in order (R28). -/
def State.postRecords (s : State) (e : Entry) (rs : List (EventKind × Byte)) : State :=
  rs.foldl (fun v r => v.post r.1 e.decl.objectId r.2 e.version) s

theorem State.postAll_eq {s : State} {i : Nat} {e : Entry} (h : s.entry? i = some e) (rs : List (EventKind × Byte)) :
    s.postAll i rs = s.postRecords e rs := State.postAll_records rs s h

/-- Changing an entry and posting records of it: they carry what it holds after the change (R28). -/
theorem State.modify_postAll {s : State} {i : Nat} {e : Entry} (h : s.entry? i = some e) (f : Entry → Entry) (rs : List (EventKind × Byte)) :
    (s.modify i f).postAll i rs = (s.put i (f e)).postRecords (f e) rs := by
  rw [State.modify_eq_put h, State.postAll_eq (State.entry?_put_same h _)]

/-- A slot that blocks a claim holds a telegram in flight other than a cancelled CLAIM (R29). -/
theorem Slot.blocksClaim_inFlight (o : Outbound) (f : FollowUp) :
    (Slot.inFlight o f).blocksClaim = true ↔ ¬ (o.kind = .claim ∧ f = .cancel) := by
  simp only [Slot.blocksClaim, Bool.not_eq_true', Bool.and_eq_false_iff, decide_eq_false_iff_not]
  exact Decidable.not_and_iff_not_or_not.symm

/-- A slot that blocks no claim: any but a telegram in flight, and a cancelled CLAIM in flight (R29). -/
theorem Slot.not_blocksClaim_iff (slot : Slot) :
    slot.blocksClaim = false ↔ ∀ o f, slot = .inFlight o f → o.kind = .claim ∧ f = .cancel := by
  cases slot with
  | inFlight o f => simp [Slot.blocksClaim]
  | none | waiting _ | owed _ | queued _ => simp [Slot.blocksClaim]

/-! ## The start of a claim -/

/-- The entry of a claimant, its telegram aside (R29). -/
def Entry.claimant (e : Entry) (view : View) : Entry := { e with ownership := .claiming view false, takeoverTimer := none }

/-- A claim starts: the CLAIM is appended, in place of a telegram that waits; a cancelled CLAIM in flight is taken up again, and any other telegram
in flight stands against the claim (R29). -/
theorem State.startClaim_eq {s : State} {i : Nat} {e : Entry} {view : View} (h : s.entry? i = some e) (ho : e.ownership = .consumer view) :
    s.startClaim i = match e.slot with
      | .none => (s.put i (e.claimant view)).append i claimOut
      | .waiting _ | .owed _ | .queued _ => ((s.put i (e.claimant view)).withdraw i).append i claimOut
      | .inFlight o f => if o.kind = .claim ∧ f = .cancel then s.put i { e.claimant view with slot := .inFlight o .none } else s := by
  have hm : s.modify i (fun e => { e with ownership := .claiming view false, takeoverTimer := none }) = s.put i (e.claimant view) :=
    State.modify_eq_put h _
  unfold State.startClaim
  rw [State.withEntry_some h, ho]
  dsimp only
  rw [hm]
  cases e.slot with
  | none | waiting _ | owed _ | queued _ => rfl
  | inFlight o f =>
    have hslot : (s.put i (e.claimant view)).setSlot i (.inFlight o .none) = s.put i { e.claimant view with slot := .inFlight o .none } :=
      (State.setSlot_eq_put (State.entry?_put_same h _) _).trans (State.put_put _ _ _ _)
    by_cases hc : o.kind = .claim ∧ f = .cancel
    · rw [if_neg (mt (Slot.blocksClaim_inFlight o f).mp (not_not_intro hc))]
      exact hslot.trans (if_pos hc).symm
    · rw [if_pos ((Slot.blocksClaim_inFlight o f).mpr hc)]
      exact (if_neg hc).symm

/-! ## The takeover logic -/

/-- UNKNOWN or ORPHANED: a consumer state with no owner (R51). -/
def Ownership.Lapsed (o : Ownership) : Prop := o = .consumer .unknown ∨ ∃ owner k, o = .consumer (.orphaned owner k)

/-- The takeover logic acts in ACTIVE alone, at an entry without an owner alone (R51). -/
theorem State.takeoverLogic_idle {s : State} {i : Nat} {e : Entry} (h : s.entry? i = some e)
    (hidle : s.sc.state ≠ .active ∨ ¬ e.ownership.Lapsed) : s.takeoverLogic i = s := by
  unfold State.takeoverLogic
  rw [State.withEntry_some h]
  split
  next hactive =>
    have hno := hidle.resolve_left (not_not_intro hactive)
    split
    next ho => exact absurd (.inl ho) hno
    next owner k ho => exact absurd (.inr ⟨owner, k, ho⟩) hno
    all_goals rfl
  next => rfl

/-- The takeover logic at an entry without an owner in ACTIVE: a HOME claims, a SPARE that takes over waits, any other does nothing (R51). -/
theorem State.takeoverLogic_lapsed {s : State} {i : Nat} {e : Entry} (h : s.entry? i = some e) (hactive : s.sc.state = .active)
    (hl : e.ownership.Lapsed) :
    s.takeoverLogic i = if e.decl.role = .home then s.startClaim i else if e.decl.takesOver then s.startTakeover i else s := by
  unfold State.takeoverLogic
  rw [State.withEntry_some h, if_pos hactive]
  obtain ho | ⟨owner, k, ho⟩ := hl <;> rw [ho]

theorem Decl.takesOver_iff (d : Decl) : d.takesOver = true ↔ d.role = .spare ∧ d.takeover = true := by
  simp [Decl.takesOver]

/-- After an outcome or a cancelled claim the takeover logic runs at an ORPHANED entry (R45, R46). -/
theorem State.takeoverIfOrphaned_orphaned {s : State} {i : Nat} {e : Entry} (h : s.entry? i = some e)
    (ho : ∃ owner k, e.ownership = .consumer (.orphaned owner k)) : s.takeoverIfOrphaned i = s.takeoverLogic i := by
  obtain ⟨owner, k, ho⟩ := ho
  unfold State.takeoverIfOrphaned
  rw [State.withEntry_some h, ho]

/-- At any other entry it does not (R45, R46). -/
theorem State.takeoverIfOrphaned_other {s : State} {i : Nat} {e : Entry} (h : s.entry? i = some e)
    (ho : ∀ owner k, e.ownership ≠ .consumer (.orphaned owner k)) : s.takeoverIfOrphaned i = s := by
  unfold State.takeoverIfOrphaned
  rw [State.withEntry_some h]
  split
  next owner k hc => exact absurd hc (ho owner k)
  all_goals rfl

/-! ## The end of a claim -/

/-- A claim that ends without success: the prior state, CLAIM_OUTCOME, and OWNER_CHANGED where the prior state changed meanwhile (R6, R35, R37). -/
theorem State.returnToPrior_eq {s : State} {i : Nat} {e : Entry} {prior : View} {changed : Bool} (h : s.entry? i = some e)
    (ho : e.ownership = .claiming prior changed) (outcome : ClaimOutcome) :
    s.returnToPrior i outcome =
      (s.put i (e.returned prior)).postRecords (e.returned prior) ((.claimOutcome outcome, e.tag) :: ownerChangedRecord prior changed) := by
  unfold State.returnToPrior
  rw [State.withEntry_some h, ho]
  exact State.modify_postAll h _ _

/-- A claimant wins: OWN, its first PUBLISH appended in place of a CLAIM that waits or recorded against the CLAIM in flight, CLAIM_OUTCOME WON
with the new version (R35, R36). -/
theorem State.win_eq {s : State} {i : Nat} {e : Entry} (h : s.entry? i = some e) :
    s.win i = (match e.slot with
      | .none => (s.put i e.won).append i (publishOf .urgent false false)
      | .waiting _ | .owed _ | .queued _ => ((s.put i e.won).withdraw i).append i (publishOf .urgent false false)
      | .inFlight o _ => s.put i { e.won with slot := .inFlight o (.publish .urgent) }).post
        (.claimOutcome .won) e.decl.objectId e.tag (some (nextVersion e.version)) := by
  have hput : (s.put i e.won).entry? i = some e.won := State.entry?_put_same h _
  have happend : ∀ (u : State) (x : Entry) (o : Outbound), u.entry? i = some x → x.decl = e.decl → x.version = some (nextVersion e.version) →
      (u.append i o).postEntry i (.claimOutcome .won) e.tag
        = (u.append i o).post (.claimOutcome .won) e.decl.objectId e.tag (some (nextVersion e.version)) := by
    intro u x o hx hd hv
    obtain ⟨slot, _, ha⟩ := u.entry?_append_same i o
    rw [hx] at ha
    rw [State.postEntry_eq_post ha, ← hd, ← hv]
  unfold State.win
  rw [State.withEntry_some h, State.modify_eq_put h]
  dsimp only
  cases e.slot with
  | none => exact happend _ _ _ hput rfl rfl
  | waiting _ | owed _ | queued _ => exact happend _ _ _ (State.entry?_withdraw_same hput) rfl rfl
  | inFlight o f =>
    dsimp only
    rw [State.setSlot_eq_put hput, State.put_put]
    exact State.postEntry_eq_post (State.entry?_put_same h _) _ _

/-! ## The two timers of a claim -/

/-- An expiry at an entry whose timer is due has its effect (R7). -/
theorem State.atDue_due {s : State} {i : Nat} {e : Entry} {timer : Entry → Timer} (h : s.entry? i = some e) (ht : timer e = some 0)
    (k : Entry → State) : s.atDue i timer k = k e := by
  unfold State.atDue
  rw [State.withEntry_some h]
  exact if_pos (by simp [Timer.due, ht])

/-- The takeover timer's expiry acts at a SPARE that takes over, in ACTIVE, without an owner: it claims, or waits again (R52). -/
theorem State.takeoverExpired_lapsed {s : State} {i : Nat} {e : Entry} (h : s.entry? i = some e) (ht : e.takeoverTimer = some 0)
    (hactive : s.sc.state = .active) (htakes : e.decl.takesOver = true) (hl : e.ownership.Lapsed) :
    s.takeoverExpired i = if e.slot.blocksClaim then s.startTakeover i else s.startClaim i := by
  unfold State.takeoverExpired
  rw [State.atDue_due h ht, if_pos ⟨hactive, htakes⟩]
  obtain ho | ⟨owner, k, ho⟩ := hl <;> rw [ho]

/-- In every other case it does nothing (R52). -/
theorem State.takeoverExpired_idle {s : State} {i : Nat}
    (h : ∀ e, s.entry? i = some e → e.takeoverTimer ≠ some 0 ∨ ¬ (s.sc.state = .active ∧ e.decl.takesOver = true) ∨ ¬ e.ownership.Lapsed) :
    s.takeoverExpired i = s := by
  refine State.atDue_same fun e he => ?_
  obtain ht | hs | hl := h e he
  · exact .inl ht
  · exact .inr (if_neg hs)
  · refine .inr ?_
    split
    · split
      next ho => exact absurd (.inl ho) hl
      next owner k ho => exact absurd (.inr ⟨owner, k, ho⟩) hl
      all_goals rfl
    · rfl

/-- The claim window's expiry is a win of a claimant, and nothing else (R36). -/
theorem State.windowExpired_claiming {s : State} {i : Nat} {e : Entry} {prior : View} {changed : Bool} (h : s.entry? i = some e)
    (ht : e.windowTimer = some 0) (ho : e.ownership = .claiming prior changed) : s.windowExpired i = s.win i := by
  unfold State.windowExpired
  rw [State.atDue_due h ht, ho]

theorem State.windowExpired_idle {s : State} {i : Nat}
    (h : ∀ e, s.entry? i = some e → e.windowTimer ≠ some 0 ∨ ∀ prior changed, e.ownership ≠ .claiming prior changed) : s.windowExpired i = s := by
  refine State.atDue_same fun e he => (h e he).imp_right fun ho => ?_
  split
  next prior changed hc => exact absurd hc (ho prior changed)
  all_goals rfl

end Sys2Proof.Machine

/-! ## The statements -/

namespace Sys2Proof

open Sys2Proof.Machine

/-- Settles O50: the start of a claim by the slot, the takeover logic by the state and the role, the return by whether the prior state changed. -/
theorem aClaimStartsAndEndsAtItsPriorState : Obligations.AClaimStartsAndEndsAtItsPriorState := by
  intro s i e h
  refine ⟨fun view ho => State.startClaim_eq h ho, ⟨State.takeoverLogic_idle h, fun hactive hl => ?lapsed⟩,
    State.takeoverIfOrphaned_orphaned h, State.takeoverIfOrphaned_other h, fun prior changed outcome ho => ?returned⟩
  case lapsed =>
    rw [State.takeoverLogic_lapsed h hactive hl]
    refine ⟨fun hr => if_pos hr, fun hr ht => ?spare, fun hrest => ?rest⟩
    case spare =>
      rw [if_neg (by simp [hr]), if_pos ((Decl.takesOver_iff _).mpr ⟨hr, ht⟩)]
      exact State.startTakeover_eq_put h
    case rest =>
      have hhome : e.decl.role ≠ .home := by rintro hh; simp [hh] at hrest
      have htakes : ¬ e.decl.takesOver = true := by rw [Decl.takesOver_iff]; rintro ⟨hs, ht⟩; simp [hs, ht] at hrest
      rw [if_neg hhome, if_neg htakes]
  case returned =>
    rw [State.returnToPrior_eq h ho]
    cases changed with
    | false => rfl
    | true => cases prior <;> rfl

/-- Settles O48: the claim window by the ownership state, the win by the slot, the takeover timer by what stands in flight. -/
theorem aClaimWindowWinsAndATakeoverTimerClaims : Obligations.AClaimWindowWinsAndATakeoverTimerClaims := by
  refine ⟨fun s i e prior changed hr h ht ho => ?window, fun s i e h => ?win, fun s i e hr h ht hactive hrole htakes hl => ?takeover,
    fun s i => ⟨fun h => ?windowIdle, fun h => ?takeoverIdle⟩⟩
  case window => exact (State.taken_high hr (·.windowExpired i)).trans (congrArg _ (State.windowExpired_claiming h ht ho))
  case win =>
    rw [State.win_eq h]
    rfl
  case takeover =>
    have hexec : exec (.takeoverTimerExpiry i) s = .next (if e.slot.blocksClaim then s.startTakeover i else s.startClaim i) :=
      (State.taken_high hr (·.takeoverExpired i)).trans
        (congrArg _ (State.takeoverExpired_lapsed h ht hactive ((Decl.takesOver_iff _).mpr ⟨hrole, htakes⟩) hl))
    refine ⟨fun hfree => ?claims, fun o f hslot hblocks => ?waits⟩
    case claims => rw [hexec, if_neg (by simp [(Slot.not_blocksClaim_iff _).mpr hfree])]
    case waits =>
      rw [hexec, if_pos (by rw [hslot, Slot.blocksClaim_inFlight]; exact hblocks)]
      exact congrArg _ (State.startTakeover_eq_put h)
  case windowIdle => exact State.taken_same (f := (·.windowExpired i)) (State.windowExpired_idle h)
  case takeoverIdle =>
    refine State.taken_same (f := (·.takeoverExpired i)) (State.takeoverExpired_idle fun e he => ?_)
    rw [Decl.takesOver_iff]
    obtain ht | hactive | hrole | htakes | ⟨hunknown, horphaned⟩ := h e he
    · exact .inl ht
    · exact .inr (.inl fun hs => hactive hs.1)
    · exact .inr (.inl fun hs => hrole hs.2.1)
    · exact .inr (.inl fun hs => Bool.noConfusion (htakes.symm.trans hs.2.2))
    · exact .inr (.inr fun hl => hl.elim hunknown fun ⟨o, k, ho⟩ => horphaned o k ho)

end Sys2Proof
end

section
/-! PROOFS. What a command can do to the tables, the queues, the buffers and the event queue: every operation is a chain of a few moves, and each
invariant is kept by every move. This part defines the moves and takes the operations of the directory apart into them. -/

namespace Sys2Proof.Machine

/-! ## What a move keeps -/

/-- The declared fields of an entry and the references its slot calls for: what the queues and tables know of it. -/
def Entry.core (e : Entry) : Decl × (Nat × Nat × Nat × Nat) := (e.decl, e.slot.calls)

/-- The value is no longer than the declared maximum (R11). -/
def Entry.ValueFits (e : Entry) : Prop := e.value.length ≤ e.decl.maxLength

/-- The sizes of what is received and not yet taken, and of the ring (R106, R120). -/
def State.Carried (s : State) : Prop :=
  s.tf.ring.length ≤ 4 ∧ (∀ t ∈ s.paths.toTf ++ s.paths.toOd, t.payload.length ≤ t.length.toNat)
    ∧ (∀ t ∈ s.paths.toRing, t.payload.length ≤ 32) ∧ ∀ c ∈ s.tf.ring, c.value.length ≤ 32

/-- The port's areas are within their sizes (R173, R204). -/
def Lp.Fits (p : Lp) : Prop :=
  p.request.fits 40 ∧ match p.port with
    | .working area => area.fits 40
    | .done r => r.value.length ≤ 32
    | .ready => True

/-- The staging buffer is within its size, and part 2 of the read knows a valid entry count (R161, R164). -/
def Il.Fits (il : Il) : Prop :=
  il.staging.fits 659 ∧ match il.phase with
    | .reading .remainder _ => 1 ≤ il.staging.entryCount ∧ il.staging.entryCount ≤ 64
    | .reading .header _ | .reading (.wait _) _ | .awaitingLoad | .installed => True

/-- Before installation: the memory is being read, or the state is LOADING or UNCONFIGURED. -/
def State.Early (s : State) : Prop := s.il.phase.isReading = true ∨ s.sc.state = .loading ∨ s.sc.state = .unconfigured

/-- t differs from s in nothing the event queue, the queues and owed lists, the references, the sizes and the phase of the read hang on,
or keeps what they ask. `ok` is what is known of the sizes where the command starts. A field that is not named holds by the record update itself. -/
structure State.Plain (ok : Prop) (s t : State) : Prop where
  pending : t.pending = s.pending := by rfl
  queue : t.eu.queue = s.eu.queue := by rfl
  lost : t.eu.lost = s.eu.lost := by rfl
  cores : t.od.entries.map Entry.core = s.od.entries.map Entry.core := by rfl
  values : ok → (∀ e ∈ s.od.entries, e.ValueFits) → ∀ e ∈ t.od.entries, e.ValueFits := by exact fun _ => id
  urgentOwed : t.od.urgentOwed = s.od.urgentOwed := by rfl
  routineOwed : t.od.routineOwed = s.od.routineOwed := by rfl
  ts : t.ts = s.ts := by rfl
  presence : t.sc.presence.calls = s.sc.presence.calls ∧ t.sc.presence.isOwed = s.sc.presence.isOwed := by exact ⟨rfl, rfl⟩
  rows : t.pm.rows.length = s.pm.rows.length := by rfl
  carried : ok → s.Carried → t.Carried := by exact fun _ => id
  lp : ok → s.lp.Fits → t.lp.Fits := by exact fun _ => id
  il : (s.il.phase.isReading = true → s.sc.state = .loading) → s.il.Fits → t.il.Fits := by exact fun _ => id
  reads : t.il.phase.isReading = true → s.il.phase.isReading = true ∧ (s.sc.state = .loading → t.sc.state = .loading) := by
    exact fun h => ⟨h, id⟩
  early : t.Early → s.Early := by exact id

/-- The entry of an index is there and calls for no reference: its slot is NONE, WAITING or in flight. -/
def State.Unreferenced (s : State) (i : Nat) : Prop := ∃ e, s.entry? i = some e ∧ e.slot.calls = (0, 0, 0, 0)

/-- One move of the part. -/
inductive State.Move (ok : Prop) : State → State → Prop
  | plain {s t : State} : s.Plain ok t → Move ok s t
  | post (s : State) (k : EventKind) (id : BitVec 12) (tag : Byte) (v : Option Byte) : Move ok s (s.post k id tag v)
  | bump (s : State) (c : Counter) : Move ok s (s.bump c)
  | append {s : State} {i : Nat} (o : Outbound) : s.Unreferenced i → Move ok s (s.append i o)
  | withdraw (s : State) (i : Nat) : Move ok s (s.withdraw i)
  | requestPresence (s : State) (st : PresenceStatus) : Move ok s (s.requestPresence st)
  | dropPresence (s : State) : Move ok s s.dropPresence
  | takeUrgent {s : State} {i : Nat} {rest : List Nat} : s.ts.urgent = i :: rest → Move ok s (s.takeUrgent i rest)
  | takeRoutine {s : State} {r : Ref} {rest : List Ref} : s.ts.routine = r :: rest → Move ok s (s.takeRoutine r rest)
  | flush (s : State) : Move ok s s.flush
  | lineRestart (s : State) : Move ok s (s.eachEntry State.lineRestartEntry).flush
  | install {s : State} {im : Image} {st : StationState} : s.Early → s.il.staging.validate = .ok im → st = .listening ∨ st = .detached →
      Move ok s { s.install im with sc := { (s.install im).sc with state := st } }

/-- t is reached from s by moves. -/
inductive State.Moves (ok : Prop) (s : State) : State → Prop
  | done : State.Moves ok s s
  | snoc {t u : State} : State.Moves ok s t → State.Move ok t u → State.Moves ok s u

/-- A sent PUBLISH changes timers alone. -/
theorem Entry.publishSent_eq (e : Entry) :
    ∃ refresh spacing, e.publishSent = { e with refreshTimer := refresh, spacingTimer := spacing } := by
  unfold Entry.publishSent
  dsimp only
  split
  · exact ⟨_, _, rfl⟩
  · exact ⟨e.refreshTimer, _, rfl⟩
  all_goals exact ⟨e.refreshTimer, e.spacingTimer, rfl⟩

namespace State.Moves

variable {ok : Prop}

theorem refl (s : State) : s.Moves ok s := .done

theorem trans {s t u : State} (h : s.Moves ok t) (k : t.Moves ok u) : s.Moves ok u := by
  induction k with
  | done => exact h
  | snoc _ hm ih => exact .snoc ih hm

theorem move {s t : State} (h : State.Move ok s t) : s.Moves ok t := .snoc .done h

theorem plain {s t : State} (h : s.Plain ok t) : s.Moves ok t := move (.plain h)

/-- What every move keeps is kept by a chain of them. -/
theorem keeps {P : State → Prop} (hP : ∀ s t, State.Move ok s t → P s → P t) {s t : State} (h : s.Moves ok t) (hs : P s) : P t := by
  induction h with
  | done => exact hs
  | snoc _ hm ih => exact hP _ _ hm ih

/-! ## The small operations -/

theorem post (s : State) (k : EventKind) (id : BitVec 12) (tag : Byte) (v : Option Byte) : s.Moves ok (s.post k id tag v) :=
  move (.post s k id tag v)

theorem postStation (s : State) (k : EventKind) (tag : Byte) : s.Moves ok (s.postStation k tag) := post s _ _ _ _

theorem bump (s : State) (c : Counter) : s.Moves ok (s.bump c) := move (.bump s c)

theorem withdraw (s : State) (i : Nat) : s.Moves ok (s.withdraw i) := move (.withdraw s i)

theorem requestPresence (s : State) (st : PresenceStatus) : s.Moves ok (s.requestPresence st) := move (.requestPresence s st)

theorem append {s : State} {i : Nat} (h : s.Unreferenced i) (o : Outbound) : s.Moves ok (s.append i o) := move (.append o h)

/-- Acting on an entry is by moves where the action is. -/
theorem withEntry {s : State} {i : Nat} {k : Entry → State} (h : ∀ e, s.entry? i = some e → s.Moves ok (k e)) : s.Moves ok (s.withEntry i k) := by
  cases he : s.entry? i with
  | none => rw [State.withEntry_none he]; exact refl s
  | some e => rw [State.withEntry_some he]; exact h e he

/-- Replacing an entry by one with the same declared fields that calls for the same references, its value still within bounds. -/
theorem put {s : State} {i : Nat} {e e' : Entry} (h : s.entry? i = some e) (hc : e'.core = e.core := by rfl)
    (hv : ok → e.ValueFits → e'.ValueFits := by exact fun _ => id) : s.Moves ok (s.put i e') := by
  obtain ⟨k, rfl, hk, he⟩ := s.entry?_lt h
  refine plain { cores := ?_, values := fun hok hs x hx => ?_ }
  · show (s.od.entries.set k e').map Entry.core = _
    rw [List.map_set, hc, ← List.map_set, ← (List.getElem?_eq_some_iff.mp he).2, List.set_getElem_self]
  · obtain hx | rfl := List.mem_or_eq_of_mem_set hx
    · exact hs x hx
    · exact hv hok (hs e (List.mem_of_getElem? he))

/-- Changing an entry likewise. -/
theorem modify (s : State) (i : Nat) {f : Entry → Entry} (hc : ∀ e, s.entry? i = some e → (f e).core = e.core := by exact fun _ _ => rfl)
    (hv : ∀ e, ok → e.ValueFits → (f e).ValueFits := by exact fun _ _ => id) : s.Moves ok (s.modify i f) := by
  cases he : s.entry? i with
  | none =>
    cases i with
    | zero => exact refl s
    | succ k =>
      have hm : s.od.entries.modify k f = s.od.entries := List.modify_eq_self (List.getElem?_eq_none_iff.mp he)
      show s.Moves ok { s with od := { s.od with entries := s.od.entries.modify k f } }
      rw [hm]
      exact refl s
  | some e =>
    rw [State.modify_eq_put he]
    exact put he (hc e he) (hv e)

/-- A slot that calls for the same references. -/
theorem setSlot {s : State} {i : Nat} {e : Entry} (h : s.entry? i = some e) {slot : Slot} (hc : slot.calls = e.slot.calls) :
    s.Moves ok (s.setSlot i slot) := by
  rw [State.setSlot_eq_put h]
  exact put h (congrArg (Prod.mk e.decl) hc)

theorem postEntry (s : State) (i : Nat) (k : EventKind) (tag : Byte) : s.Moves ok (s.postEntry i k tag) := withEntry fun _ _ => post s _ _ _ _

theorem postAll (i : Nat) : ∀ (rs : List (EventKind × Byte)) (s : State), s.Moves ok (s.postAll i rs)
  | [], s => refl s
  | r :: rs, s => (postEntry s i r.1 r.2).trans (postAll i rs _)

/-- A chain over the entries in index order. -/
theorem eachEntry {f : State → Nat → State} (h : ∀ (s : State) i, s.Moves ok (f s i)) (s : State) : s.Moves ok (s.eachEntry f) := by
  unfold State.eachEntry
  generalize List.range' 1 s.od.entries.length = l
  induction l generalizing s with
  | nil => exact refl s
  | cons i l ih => exact (h s i).trans (ih (f s i))

/-! ## Telegrams into and out of the slots -/

theorem unreferenced {s : State} {i : Nat} {e : Entry} (h : s.entry? i = some e) (hc : e.slot.calls = (0, 0, 0, 0) := by rfl) :
    s.Unreferenced i := ⟨e, h, hc⟩

/-- An entry whose telegram has been withdrawn calls for no reference. -/
theorem withdraw_unreferenced {s : State} {i : Nat} {e : Entry} (h : s.entry? i = some e) : (s.withdraw i).Unreferenced i := by
  refine ⟨_, State.entry?_withdraw_same h, ?_⟩
  cases e.slot <;> rfl

/-- A telegram takes the place of the one withdrawn. -/
theorem requeue {s : State} {i : Nat} {e : Entry} (h : s.entry? i = some e) (o : Outbound) : s.Moves ok ((s.withdraw i).append i o) :=
  (withdraw s i).trans (append (withdraw_unreferenced h) o)

/-- A request merged into a telegram that waits leaves its place (R56). -/
theorem calls_merged {f : Outbound → Outbound} (hf : ∀ o, (f o).cls = o.cls) (slot : Slot) : (slot.merged f).calls = slot.calls := by
  cases slot with
  | none | waiting _ | inFlight _ _ => rfl
  | owed o | queued o => simp [Slot.merged, Slot.calls, hf o]

theorem merge {s : State} {i : Nat} {e : Entry} (h : s.entry? i = some e) {f : Outbound → Outbound} (hf : ∀ o, (f o).cls = o.cls) :
    s.Moves ok (s.setSlot i (e.slot.merged f)) := setSlot h (calls_merged hf _)

theorem publishSpaced {s : State} {i : Nat} {e : Entry} (h : s.entry? i = some e) (hs : e.slot.calls = (0, 0, 0, 0)) (e' : Entry)
    (o : Outbound) : s.Moves ok (s.publishSpaced i e' o) := by
  unfold State.publishSpaced
  split
  · exact setSlot h hs.symm
  · exact append ⟨e, h, hs⟩ o

theorem requestChange (s : State) (i : Nat) : s.Moves ok (s.requestChange i) := by
  refine withEntry fun e he => ?_
  have hmerge := merge (ok := ok) he (f := fun o => { o with refresh := false }) fun _ => rfl
  cases hs : e.slot with
  | none => exact publishSpaced he (by rw [hs]; rfl) e _
  | waiting _ | owed _ | queued _ => rw [hs] at hmerge; exact hmerge
  | inFlight o f =>
    cases f with
    | none => exact setSlot he (by rw [hs]; rfl)
    | publish _ | yield _ | cancel => exact refl s

theorem requestAnswer (s : State) (i : Nat) : s.Moves ok (s.requestAnswer i) := by
  refine withEntry fun e he => ?_
  have hmerge := merge (ok := ok) he (f := fun o => { o with answer := true }) fun _ => rfl
  cases hs : e.slot with
  | none => exact publishSpaced he (by rw [hs]; rfl) e _
  | waiting _ | owed _ | queued _ => rw [hs] at hmerge; exact hmerge
  | inFlight _ _ => exact refl s

theorem defend (s : State) (i : Nat) : s.Moves ok (s.defend i) := by
  refine withEntry fun e he => ?_
  have hmerge := merge (ok := ok) he (f := fun o => { o with answer := true }) fun _ => rfl
  cases hs : e.slot with
  | none => exact append ⟨e, he, by rw [hs]; rfl⟩ _
  | waiting _ => exact requeue he _
  | owed o | queued o =>
    rw [hs] at hmerge
    dsimp only
    split
    · exact hmerge
    · exact requeue he _
  | inFlight _ _ => exact refl s

theorem requestQuery {s : State} {i : Nat} (h : s.Unreferenced i) : s.Moves ok (s.requestQuery i) := append h queryOut

theorem withdrawQuery (s : State) (i : Nat) : s.Moves ok (s.withdrawQuery i) := by
  refine withEntry fun e _ => ?_
  cases e.slot with
  | queued o | owed o =>
    dsimp only
    split
    · exact withdraw s i
    · exact refl s
  | none | waiting _ | inFlight _ _ => exact refl s

/-- The CLAIM or PUBLISH of an entry voided: withdrawn where it waits, with another follow-up where it is in flight. -/
theorem voidClaim (s : State) (i : Nat) : s.Moves ok (s.voidClaim i) := by
  refine withEntry fun e he => ?_
  cases hs : e.slot with
  | none => exact refl s
  | waiting _ | owed _ | queued _ => exact withdraw s i
  | inFlight o f => exact setSlot he (by rw [hs]; rfl)

theorem voidPublish (s : State) (i : Nat) : s.Moves ok (s.voidPublish i) := by
  refine withEntry fun e he => ?_
  cases hs : e.slot with
  | none => exact refl s
  | waiting _ | owed _ | queued _ => exact withdraw s i
  | inFlight o f => exact setSlot he (by rw [hs]; rfl)

/-! ## Claims -/

theorem startClaim (s : State) (i : Nat) : s.Moves ok (s.startClaim i) := by
  refine withEntry fun e he => ?_
  cases e.ownership with
  | claiming _ _ | own | yielding => exact refl s
  | consumer view =>
    dsimp only
    split
    · exact refl s
    · have hclaim : s.Moves ok (s.modify i fun e => { e with ownership := .claiming view false, takeoverTimer := none }) := modify s i
      have he1 : (s.modify i fun e => { e with ownership := .claiming view false, takeoverTimer := none }).entry? i
          = some { e with ownership := .claiming view false, takeoverTimer := none } := by rw [State.entry?_modify_same, he]; rfl
      refine hclaim.trans ?_
      cases hs : e.slot with
      | none => exact append ⟨_, he1, show e.slot.calls = _ by rw [hs]; rfl⟩ _
      | waiting _ | owed _ | queued _ => exact requeue he1 _
      | inFlight o f => exact setSlot he1 (show _ = e.slot.calls by rw [hs]; rfl)

theorem startTakeover (s : State) (i : Nat) : s.Moves ok (s.startTakeover i) := modify s i

theorem takeoverLogic (s : State) (i : Nat) : s.Moves ok (s.takeoverLogic i) := by
  refine withEntry fun e he => ?_
  split
  · have hact : s.Moves ok (if e.decl.role = .home then s.startClaim i else if e.decl.takesOver then s.startTakeover i else s) := by
      split
      · exact startClaim s i
      · split
        · exact startTakeover s i
        · exact refl s
    cases e.ownership with
    | consumer view =>
      cases view with
      | unknown | orphaned _ _ => exact hact
      | foreign _ _ _ => exact refl s
    | claiming _ _ | own | yielding => exact refl s
  · exact refl s

theorem takeoverIfOrphaned (s : State) (i : Nat) : s.Moves ok (s.takeoverIfOrphaned i) := by
  refine withEntry fun e he => ?_
  split
  next => exact takeoverLogic s i
  all_goals exact refl s

theorem claimIfHomeOrphaned (s : State) (i : Nat) : s.Moves ok (s.claimIfHomeOrphaned i) := by
  refine withEntry fun e he => ?_
  split
  · exact takeoverIfOrphaned s i
  · exact refl s

theorem returnToPrior (s : State) (i : Nat) (o : ClaimOutcome) : s.Moves ok (s.returnToPrior i o) := by
  refine withEntry fun e he => ?_
  split
  next => exact (modify s i).trans (postAll _ _ _)
  all_goals exact refl s

theorem win (s : State) (i : Nat) : s.Moves ok (s.win i) := by
  refine withEntry fun e he => ?_
  have he1 : (s.modify i Entry.won).entry? i = some e.won := by rw [State.entry?_modify_same, he]; rfl
  have hwon : s.Moves ok (s.modify i Entry.won) := modify s i
  refine hwon.trans (trans ?_ (postEntry _ _ _ _))
  cases hs : e.slot with
  | none => exact append ⟨_, he1, show e.slot.calls = _ by rw [hs]; rfl⟩ _
  | waiting _ | owed _ | queued _ => exact requeue he1 _
  | inFlight o f => exact setSlot he1 (show _ = e.slot.calls by rw [hs]; rfl)

theorem loseToClaim (s : State) (i : Nat) : s.Moves ok (s.loseToClaim i) := by
  refine withEntry fun e _ => ?_
  have hlost : s.Moves ok (((s.voidClaim i).modify i fun e =>
      { e with ownership := .consumer .unknown, windowTimer := none, pendingTag := none }).postEntry i (.claimOutcome .lost) e.tag) :=
    ((voidClaim s i).trans (modify _ i)).trans (postEntry _ _ _ _)
  dsimp only
  split
  · exact hlost.trans (startTakeover _ _)
  · exact hlost

theorem cancelClaim (s : State) (i : Nat) : s.Moves ok (s.cancelClaim i) := by
  refine withEntry fun e he => ?_
  cases hs : e.slot with
  | inFlight o f => exact setSlot he (by rw [hs]; rfl)
  | none | waiting _ | owed _ | queued _ => exact ((withdraw s i).trans (returnToPrior _ _ _)).trans (takeoverIfOrphaned _ _)

theorem startYield (s : State) (i : Nat) (n : Option Byte) : s.Moves ok (s.startYield i n) := by
  refine withEntry fun e he => ?_
  have he1 : (s.modify i fun e => { e with ownership := .yielding, refreshTimer := none }).entry? i
      = some { e with ownership := .yielding, refreshTimer := none } := by rw [State.entry?_modify_same, he]; rfl
  have hyield : s.Moves ok (s.modify i fun e => { e with ownership := .yielding, refreshTimer := none }) := modify s i
  refine hyield.trans ?_
  cases hs : e.slot with
  | none => exact append ⟨_, he1, show e.slot.calls = _ by rw [hs]; rfl⟩ _
  | waiting _ | owed _ | queued _ => exact requeue he1 _
  | inFlight o f => exact setSlot he1 (show _ = e.slot.calls by rw [hs]; rfl)

theorem handedBack (s : State) (i : Nat) (n : Byte) : s.Moves ok (s.handedBack i n) := (modify s i).trans (postAll _ _ _)

theorem released (s : State) (i : Nat) (o : TxOutcome) : s.Moves ok (s.released i o) :=
  withEntry fun _ _ => (modify s i).trans (postAll _ _ _)

/-! ## Values taken -/

/-- A value that fits replaces the one held. -/
theorem acceptValue {s : State} {i : Nat} {t : Telegram} (ht : ∀ e, s.entry? i = some e → ok → t.payload.length ≤ e.decl.maxLength) (b : Bool)
    (rs : List (EventKind × Byte)) : s.Moves ok (s.acceptValue i t b rs) := by
  refine withEntry fun e he => trans (trans ?_ (withdrawQuery _ _)) (postAll _ _ _)
  rw [State.modify_eq_put he]
  exact put he rfl fun hok _ => ht e he hok

theorem refuseValue (s : State) (i : Nat) (t : Telegram) (rs : List (EventKind × Byte)) : s.Moves ok (s.refuseValue i t rs) :=
  withEntry fun _ _ => ((postAll _ _ _).trans (bump _ _)).trans (post _ _ _ _ _)

theorem adoptOwner (s : State) (i : Nat) {t : Telegram} (ht : ok → t.payload.length ≤ t.length.toNat) (d : Timer) (rs : List (EventKind × Byte)) :
    s.Moves ok (s.adoptOwner i t d rs) := by
  refine withEntry fun e he => ?_
  split
  · exact (modify s i).trans (refuseValue _ _ _ _)
  next hfits =>
    refine acceptValue (fun e' he' hok => ?_) _ _
    obtain rfl : e = e' := Option.some.inj (he.symm.trans he')
    exact Nat.le_trans (ht hok) (Nat.not_lt.mp hfits)

theorem takeFromOwner (s : State) (i : Nat) {t : Telegram} (ht : ok → t.payload.length ≤ t.length.toNat) (a : Bool) :
    s.Moves ok (s.takeFromOwner i t a) := by
  refine withEntry fun e he => ?_
  split
  · exact (modify s i).trans (refuseValue _ _ _ _)
  next hfits =>
    have haccept : ∀ same, s.Moves ok (s.acceptValue i t same []) := fun same => by
      refine acceptValue (fun e' he' hok => ?_) _ _
      obtain rfl : e = e' := Option.some.inj (he.symm.trans he')
      exact Nat.le_trans (ht hok) (Nat.not_lt.mp hfits)
    split
    · exact haccept _
    · split
      · exact haccept _
      · split
        · exact haccept _
        · exact haccept _
        · exact (modify s i).trans (bump _ _)

theorem publishAtConsumer (s : State) (i : Nat) {t : Telegram} (ht : ok → t.payload.length ≤ t.length.toNat) (v : View) :
    s.Moves ok (s.publishAtConsumer i t v) := by
  refine withEntry fun e _ => ?_
  cases v with
  | unknown | orphaned _ _ => exact (modify s i).trans (adoptOwner _ _ ht _ _)
  | foreign _ _ _ =>
    dsimp only
    split
    · exact takeFromOwner s i ht _
    · split
      · exact adoptOwner s i ht _ _
      · exact refl s

theorem publishAtClaimant (s : State) (i : Nat) {t : Telegram} (ht : ok → t.payload.length ≤ t.length.toNat) :
    s.Moves ok (s.publishAtClaimant i t) := by
  refine withEntry fun e _ => ?_
  split
  · exact refl s
  · exact ((voidClaim s i).trans (modify _ i)).trans (adoptOwner _ _ ht _ _)

theorem publishAtOwner (s : State) (i : Nat) {t : Telegram} (ht : ok → t.payload.length ≤ t.length.toNat) : s.Moves ok (s.publishAtOwner i t) := by
  refine withEntry fun e _ => ?_
  split
  · exact ((voidPublish s i).trans (modify _ i)).trans (adoptOwner _ _ ht _ _)
  · exact defend s i

theorem publishAtEntry (s : State) (i : Nat) (e : Entry) {t : Telegram} (ht : ok → t.payload.length ≤ t.length.toNat) :
    s.Moves ok (s.publishAtEntry i e t) := by
  unfold State.publishAtEntry
  split
  · exact publishAtConsumer s i ht _
  · exact publishAtClaimant s i ht
  · exact publishAtOwner s i ht
  · exact refl s

/-! ## Yields, claims, queries and notices at an entry -/

theorem orphanEntry (s : State) (i : Nat) (v : View) : s.Moves ok (s.orphanEntry i v) :=
  ((modify s i).trans (postEntry _ _ _ _)).trans (takeoverLogic _ _)

theorem followSuccessor (s : State) (i : Nat) (n : Byte) : s.Moves ok (s.followSuccessor i n) := (modify s i).trans (postEntry _ _ _ _)

theorem yieldAtConsumer (s : State) (i : Nat) (t : Telegram) (v : View) : s.Moves ok (s.yieldAtConsumer i t v) := by
  unfold State.yieldAtConsumer
  split
  next => exact refl s
  next =>
    split
    · split
      · exact followSuccessor s i _
      · exact orphanEntry s i _
    · exact refl s
  next =>
    split
    · split
      · exact followSuccessor s i _
      · exact refl s
    · exact refl s

theorem yieldAtEntry (s : State) (i : Nat) (e : Entry) (t : Telegram) : s.Moves ok (s.yieldAtEntry i e t) := by
  unfold State.yieldAtEntry
  split
  next => exact yieldAtConsumer s i t _
  next =>
    refine withEntry fun e _ => ?_
    split
    · exact win s i
    · exact modify s i
  all_goals exact refl s

theorem claimAtEntry (s : State) (i : Nat) (e : Entry) (t : Telegram) : s.Moves ok (s.claimAtEntry i e t) := by
  unfold State.claimAtEntry State.claimAtConsumer State.claimAtClaimant State.claimAtOwner
  split
  · exact refl s
  · split
    next =>
      split
      · exact startTakeover s i
      · exact refl s
    next =>
      split
      · exact loseToClaim s i
      · exact refl s
    next =>
      split
      · exact startYield s i _
      · exact defend s i
    next => exact refl s

theorem queryAtEntry (s : State) (i : Nat) (e : Entry) (t : Telegram) : s.Moves ok (s.queryAtEntry i e t) := by
  unfold State.queryAtEntry
  split
  next =>
    split
    · exact refl s
    · exact requestAnswer s i
  all_goals exact refl s

theorem noticeAtEntry (s : State) (n : Byte) (i : Nat) : s.Moves ok (s.noticeAtEntry n i) := by
  refine withEntry fun e _ => ?_
  split
  next =>
    split
    · exact orphanEntry s i _
    · exact refl s
  next =>
    split
    · exact modify s i
    · exact refl s
  all_goals exact refl s

theorem noticeAtOd (s : State) (n : Byte) : s.Moves ok (s.noticeAtOd n) := eachEntry (fun s i => noticeAtEntry s n i) s

/-! ## Outcomes -/

theorem serveFollowUp {s : State} {i : Nat} (h : ∀ e, s.entry? i = some e → e.ownership = .own ∨ e.ownership = .yielding →
    e.slot.calls = (0, 0, 0, 0)) (f : FollowUp) : s.Moves ok (s.serveFollowUp i f) := by
  refine withEntry fun e he => ?_
  split
  next ho => exact publishSpaced he (h e he (.inl ho)) e _
  next ho => exact append ⟨e, he, h e he (.inr ho)⟩ _
  all_goals exact refl s

theorem claimOutcome (s : State) (i : Nat) (e : Entry) (f : FollowUp) (o : TxOutcome) : s.Moves ok (s.claimOutcome i e f o) := by
  unfold State.claimOutcome
  split
  next =>
    split
    · exact (returnToPrior s i _).trans (takeoverIfOrphaned _ _)
    · split
      · exact modify s i
      · exact (returnToPrior s i _).trans (takeoverLogic _ _)
  all_goals exact refl s

theorem publishSent (s : State) (i : Nat) : s.Moves ok (s.modify i Entry.publishSent) := by
  refine modify s i (fun e _ => ?_) (fun e _ hv => ?_)
  all_goals obtain ⟨refresh, spacing, h⟩ := e.publishSent_eq
  · rw [h]; rfl
  · rw [h]; exact hv

theorem yieldOutcome (s : State) (i : Nat) (e : Entry) (o : Outbound) (outcome : TxOutcome) : s.Moves ok (s.yieldOutcome i e o outcome) := by
  unfold State.yieldOutcome
  split
  next =>
    split
    · exact handedBack s i _
    · exact released s i _
  all_goals exact refl s

theorem outcomeByKind (s : State) (i : Nat) (e : Entry) (x : Outbound) (f : FollowUp) (o : TxOutcome) :
    s.Moves ok (s.outcomeByKind i e x f o) := by
  unfold State.outcomeByKind
  split
  next =>
    split
    · exact publishSent s i
    · exact refl s
  next => exact claimOutcome s i e f o
  next => exact yieldOutcome s i e x o
  next => exact refl s

end State.Moves

end Sys2Proof.Machine
end

section
/-! PROOFS. The rest of the operations taken apart into moves: outcomes with their follow-ups, the expiries, the station's events, the filter, the line,
the image, the port; and the inversion of a command: a chain of moves, a pop of the event queue, or a full restart. -/

namespace Sys2Proof.Machine

-- One proof is elaborated at a time: all that the text still has in flight here would not fit the check's memory limit.
set_option Elab.async false

/-! ## Where a follow-up is served -/

/-- OWN or YIELDING: the states in which a follow-up is served (R67). -/
def Ownership.Served (o : Ownership) : Prop := o = .own ∨ o = .yielding

theorem Ownership.not_served_consumer (v : View) : ¬ (Ownership.consumer v).Served := by simp [Ownership.Served]

theorem Ownership.not_served_claiming (v : View) (c : Bool) : ¬ (Ownership.claiming v c).Served := by simp [Ownership.Served]

/-- The entry of an index is there, neither OWN nor YIELDING. -/
def State.Unserved (s : State) (i : Nat) : Prop := ∃ e, s.entry? i = some e ∧ ¬ e.ownership.Served

theorem State.Unserved.append {s : State} {i : Nat} (h : s.Unserved i) (o : Outbound) : (s.append i o).Unserved i := by
  obtain ⟨e, he, hn⟩ := h
  obtain ⟨slot, _, ha⟩ := s.entry?_append_same i o
  rw [he] at ha
  exact ⟨_, ha, hn⟩

theorem State.Unserved.withdraw {s : State} {i : Nat} (h : s.Unserved i) : (s.withdraw i).Unserved i := by
  obtain ⟨e, he, hn⟩ := h
  exact ⟨_, State.entry?_withdraw_same he, hn⟩

theorem State.Unserved.startClaim {s : State} {i : Nat} (h : s.Unserved i) : (s.startClaim i).Unserved i := by
  obtain ⟨e, he, hn⟩ := h
  cases ho : e.ownership with
  | own | yielding => exact absurd ho (by simp [Ownership.Served] at hn; simp [hn])
  | claiming v c =>
    unfold State.startClaim
    rw [State.withEntry_some he, ho]
    exact ⟨e, he, hn⟩
  | consumer v =>
    have hclaimant : (s.put i (e.claimant v)).Unserved i := ⟨_, State.entry?_put_same he _, Ownership.not_served_claiming v false⟩
    rw [State.startClaim_eq he ho]
    cases e.slot with
    | none => exact hclaimant.append _
    | waiting _ | owed _ | queued _ => exact hclaimant.withdraw.append _
    | inFlight o f =>
      dsimp only
      split
      · exact ⟨_, State.entry?_put_same he _, Ownership.not_served_claiming v false⟩
      · exact ⟨e, he, hn⟩

theorem State.Unserved.takeoverLogic {s : State} {i : Nat} (h : s.Unserved i) : (s.takeoverLogic i).Unserved i := by
  have hclaim := h.startClaim
  obtain ⟨e, he, hn⟩ := h
  by_cases hl : s.sc.state = .active ∧ e.ownership.Lapsed
  · rw [State.takeoverLogic_lapsed he hl.1 hl.2]
    split
    · exact hclaim
    · split
      · rw [State.startTakeover_eq_put he]
        exact ⟨_, State.entry?_put_same he _, hn⟩
      · exact ⟨e, he, hn⟩
  · rw [State.takeoverLogic_idle he (Decidable.not_and_iff_not_or_not.mp hl)]
    exact ⟨e, he, hn⟩

theorem State.Unserved.takeoverIfOrphaned {s : State} {i : Nat} (h : s.Unserved i) : (s.takeoverIfOrphaned i).Unserved i := by
  have htake := h.takeoverLogic
  obtain ⟨e, he, hn⟩ := h
  by_cases ho : ∃ owner k, e.ownership = .consumer (.orphaned owner k)
  · rw [State.takeoverIfOrphaned_orphaned he ho]
    exact htake
  · rw [State.takeoverIfOrphaned_other he (fun owner k hc => ho ⟨owner, k, hc⟩)]
    exact ⟨e, he, hn⟩

theorem State.entry?_postRecords (e : Entry) (i : Nat) : ∀ (rs : List (EventKind × Byte)) (s : State),
    (s.postRecords e rs).entry? i = s.entry? i
  | [], _ => rfl
  | _ :: rs, s => (State.entry?_postRecords e i rs _).trans (s.entry?_post _ _ _ _ i)

theorem State.unserved_returnToPrior {s : State} {i : Nat} {e : Entry} {v : View} {c : Bool} (h : s.entry? i = some e)
    (ho : e.ownership = .claiming v c) (outcome : ClaimOutcome) : (s.returnToPrior i outcome).Unserved i := by
  rw [State.returnToPrior_eq h ho]
  exact ⟨_, (State.entry?_postRecords _ _ _ _).trans (State.entry?_put_same h _), Ownership.not_served_consumer v⟩

/-- The rule of a telegram's kind, applied with the slot NONE, leaves an OWN or YIELDING entry with the slot NONE (R130). -/
theorem State.outcomeByKind_slot {s : State} {i : Nat} {e : Entry} (h : s.entry? i = some e) (hs : e.slot = .none) (ow : Entry)
    (hw : ow.ownership = e.ownership) (o : Outbound) (f : FollowUp) (outcome : TxOutcome) :
    ∀ e', (s.outcomeByKind i ow o f outcome).entry? i = some e' → e'.ownership.Served → e'.slot.calls = (0, 0, 0, 0) := by
  have hsame : ∀ e', s.entry? i = some e' → e'.ownership.Served → e'.slot.calls = (0, 0, 0, 0) := by
    intro e' he' _
    obtain rfl : e = e' := Option.some.inj (h.symm.trans he')
    rw [hs]; rfl
  have hnone : ∀ u : State, u.Unserved i → ∀ e', u.entry? i = some e' → e'.ownership.Served → e'.slot.calls = (0, 0, 0, 0) := by
    rintro u ⟨x, hx, hn⟩ e' he' hserved
    obtain rfl : x = e' := Option.some.inj (hx.symm.trans he')
    exact absurd hserved hn
  unfold State.outcomeByKind
  cases o.kind with
  | query => exact hsame
  | publish =>
    cases outcome with
    | abandoned => exact hsame
    | sent =>
      intro e' he' _
      obtain ⟨refresh, spacing, hp⟩ := e.publishSent_eq
      dsimp only at he'
      rw [State.entry?_modify_same, h, Option.map_some, hp] at he'
      obtain rfl := Option.some.inj he'
      show e.slot.calls = _
      rw [hs]; rfl
  | claim =>
    dsimp only
    unfold State.claimOutcome
    cases ho : ow.ownership with
    | consumer _ | own | yielding => exact hsame
    | claiming v c =>
      have hreturn := fun outcome => State.unserved_returnToPrior h (hw ▸ ho) outcome
      dsimp only
      split
      · exact hnone _ (hreturn .cancelled).takeoverIfOrphaned
      · cases outcome with
        | abandoned => exact hnone _ (hreturn .failed).takeoverLogic
        | sent =>
          refine hnone _ ⟨{ e with windowTimer := some s.claimWindow }, ?_, ?_⟩
          · dsimp only
            rw [State.entry?_modify_same, h]; rfl
          · show ¬ e.ownership.Served
            rw [← hw, ho]
            exact Ownership.not_served_claiming v c
  | yield =>
    dsimp only
    unfold State.yieldOutcome
    cases ow.ownership with
    | consumer _ | own | claiming _ _ => exact hsame
    | yielding =>
      cases o.successor with
      | some n =>
        refine hnone _ ?_
        dsimp only [State.handedBack]
        rw [State.modify_postAll h]
        exact ⟨_, (State.entry?_postRecords _ _ _ _).trans (State.entry?_put_same h _), Ownership.not_served_consumer _⟩
      | none =>
        refine hnone _ ?_
        dsimp only [State.released]
        rw [State.withEntry_some h, State.modify_postAll h]
        exact ⟨_, (State.entry?_postRecords _ _ _ _).trans (State.entry?_put_same h _), Ownership.not_served_consumer _⟩

/-- A state that is neither LOADING nor UNCONFIGURED: it has an image. -/
def StationState.Configured (st : StationState) : Prop := st ≠ .loading ∧ st ≠ .unconfigured

namespace State.Moves

variable {ok : Prop}

/-! ## Outcomes and expiries at an entry -/

theorem outcomeAtEntry (s : State) (i : Nat) (outcome : TxOutcome) : s.Moves ok (s.outcomeAtEntry i outcome) := by
  refine withEntry fun e he => ?_
  cases hs : e.slot with
  | none | waiting _ | owed _ | queued _ => exact refl s
  | inFlight o f =>
    have hfreed : (s.setSlot i .none).entry? i = some { e with slot := .none } := by
      rw [State.setSlot_eq_put he, State.entry?_put_same he]
    refine trans (trans (trans (setSlot he (by rw [hs]; rfl)) (outcomeByKind _ i e o f outcome)) (serveFollowUp ?_ f)) (claimIfHomeOrphaned _ i)
    exact State.outcomeByKind_slot hfreed rfl e rfl o f outcome

theorem atDue {s : State} {i : Nat} {timer : Entry → Timer} {k : Entry → State} (h : ∀ e, s.entry? i = some e → s.Moves ok (k e)) :
    s.Moves ok (s.atDue i timer k) := by
  refine withEntry fun e he => ?_
  split
  · exact h e he
  · exact refl s

theorem freshnessExpired (s : State) (i : Nat) : s.Moves ok (s.freshnessExpired i) := by
  refine atDue fun e _ => ?_
  dsimp only
  split
  · exact modify s i
  · exact (modify s i).trans (postEntry _ _ _ _)

theorem refreshExpired (s : State) (i : Nat) : s.Moves ok (s.refreshExpired i) := by
  refine atDue fun e he => ?_
  split
  · exact refl s
  · split
    · exact modify s i
    next hnone =>
      split
      · exact (bump s .shed).trans (modify _ i)
      · have he1 : (s.modify i fun e => { e with refreshTimer := none }).entry? i = some { e with refreshTimer := none } := by
          rw [State.entry?_modify_same, he]; rfl
        refine (modify s i).trans (publishSpaced he1 ?_ e _)
        show e.slot.calls = _
        cases hs : e.slot with
        | none => rfl
        | waiting _ | owed _ | queued _ | inFlight _ _ => simp [hs, Slot.isNone] at hnone

theorem spacingExpired (s : State) (i : Nat) : s.Moves ok (s.spacingExpired i) := by
  refine atDue fun e he => ?_
  have hstop : s.Moves ok (s.modify i fun e => { e with spacingTimer := none }) := modify s i
  have he1 : (s.modify i fun e => { e with spacingTimer := none }).entry? i = some { e with spacingTimer := none } := by
    rw [State.entry?_modify_same, he]; rfl
  cases hs : e.slot with
  | waiting o => exact hstop.trans (append ⟨_, he1, show e.slot.calls = _ by rw [hs]; rfl⟩ o)
  | none | owed _ | queued _ | inFlight _ _ => exact hstop

theorem windowExpired (s : State) (i : Nat) : s.Moves ok (s.windowExpired i) := by
  refine atDue fun e _ => ?_
  split
  next => exact win s i
  all_goals exact refl s

theorem takeoverExpired (s : State) (i : Nat) : s.Moves ok (s.takeoverExpired i) := by
  refine atDue fun e _ => ?_
  have hact : s.Moves ok (if e.slot.blocksClaim then s.startTakeover i else s.startClaim i) := by
    split
    · exact startTakeover s i
    · exact startClaim s i
  split
  · cases e.ownership with
    | consumer view =>
      cases view with
      | unknown | orphaned _ _ => exact hact
      | foreign _ _ _ => exact refl s
    | claiming _ _ | own | yielding => exact refl s
  · exact refl s

/-! ## The entries at the station's events -/

theorem joinEntry (s : State) (i : Nat) : s.Moves ok (s.joinEntry i) := by
  refine withEntry fun e _ => ?_
  have hact : s.Moves ok (if e.decl.role = .home then s.startClaim i else if e.decl.takesOver then s.startTakeover i else s) := by
    split
    · exact startClaim s i
    · split
      · exact startTakeover s i
      · exact refl s
  cases e.ownership with
  | consumer view =>
    cases view with
    | unknown | orphaned _ _ => exact hact
    | foreign _ _ _ =>
      dsimp only
      split
      · exact startClaim s i
      · exact refl s
  | claiming _ _ | own | yielding => exact refl s

theorem joinQuery (s : State) (i : Nat) : s.Moves ok (s.joinQuery i) := by
  refine withEntry fun e he => ?_
  split
  next hq =>
    refine requestQuery ⟨e, he, ?_⟩
    obtain ⟨_, _, hnone⟩ := hq
    cases hs : e.slot with
    | none => rfl
    | waiting _ | owed _ | queued _ | inFlight _ _ => simp [hs, Slot.isNone] at hnone
  next => exact refl s

theorem joinActions (s : State) : s.Moves ok s.joinActions := (eachEntry joinEntry s).trans (eachEntry joinQuery _)

theorem leaveEntry (s : State) (i : Nat) : s.Moves ok (s.leaveEntry i) := by
  refine withEntry fun e _ => ?_
  split
  next => exact startYield s i _
  next => exact cancelClaim s i
  next => exact modify s i
  next => exact refl s

theorem loseEntry (s : State) (c : LossCause) (i : Nat) : s.Moves ok (s.loseEntry c i) := by
  refine withEntry fun e _ => ?_
  split
  next => exact (modify s i).trans (postAll _ _ _)
  next => exact (modify s i).trans (postAll _ _ _)
  next => exact (modify s i).trans (returnToPrior _ _ _)
  next => exact modify s i

theorem loseAll (s : State) (c : LossCause) : s.Moves ok (s.loseAll c) := eachEntry (fun s i => loseEntry s c i) s

theorem noticesTaken (s : State) : s.Moves ok s.noticesTaken := by
  have hall : ∀ (l : List Notice) (t : State), t.Moves ok (l.foldl (fun s n => s.noticeAtOd n.station) t) := fun l => by
    induction l with
    | nil => exact refl
    | cons n l ih => exact fun t => (noticeAtOd t n.station).trans (ih _)
  exact (plain {}).trans (hall s.paths.notices _)

theorem sweepRow (s : State) (n : Nat) : s.Moves ok (s.sweepRow n) := by
  obtain ⟨l, h⟩ := State.Outside.sweepRow s n
  rw [h]
  exact plain {}

theorem joinSweep (s : State) : s.Moves ok s.joinSweep := by
  have hall : ∀ (l : List Nat) (t : State), t.Moves ok (l.foldl State.sweepRow t) := fun l => by
    induction l with
    | nil => exact refl
    | cons n l ih => exact fun t => (sweepRow t n).trans (ih _)
  exact (hall _ s).trans (noticesTaken _)

theorem judgeSlots (s : State) : s.Moves ok s.judgeSlots := by
  unfold State.judgeSlots
  split
  · exact plain {}
  · exact refl s

/-! ## The station's operations -/

/-- A change of the station record alone that leaves the presence record as it is, and the state as it is or out of LOADING for a configured one. -/
theorem station {s : State} {x : Sc} (hp : x.presence = s.sc.presence)
    (hst : x.state = s.sc.state ∨ s.sc.state ≠ .loading ∧ x.state.Configured) : s.Moves ok { s with sc := x } := by
  refine plain { presence := by rw [hp]; exact ⟨rfl, rfl⟩, reads := fun h => ⟨h, fun hl => ?_⟩, early := fun h => ?_ }
  · obtain hsame | ⟨hl', _⟩ := hst
    · exact hsame.trans hl
    · exact absurd hl hl'
  · obtain hsame | ⟨_, hl', hu⟩ := hst
    · exact h.imp_right fun h => hsame ▸ h
    · exact .inl (h.resolve_right fun h => h.elim hl' hu)

theorem enterState {s : State} (h : s.sc.state ≠ .loading) {st : StationState} (hst : st.Configured) (cause : StationCause) (tag : Byte) :
    s.Moves ok (s.enterState st cause tag) :=
  (station (x := { s.sc with state := st }) rfl (.inr ⟨h, hst⟩)).trans (postStation _ _ _)

/-- Entry to a state, with fields of the station record set beside it. -/
theorem enterWith {s : State} {x : Sc} {st : StationState} {cause : StationCause} {tag : Byte} (h : s.sc.state ≠ .loading)
    (hst : st.Configured) (hx : x.state = s.sc.state := by rfl) (hp : x.presence = s.sc.presence := by rfl) :
    s.Moves ok ({ s with sc := x }.enterState st cause tag) :=
  (station hp (.inl hx)).trans (enterState (by rw [← hx] at h; exact h) hst cause tag)

theorem beginListening (s : State) : s.Moves ok s.beginListening :=
  trans (plain {}) (requestPresence _ .joining)

theorem startPresence (s : State) : s.Moves ok s.startPresence :=
  (requestPresence s .active).trans (plain {})

theorem flush (s : State) : s.Moves ok s.flush := move (.flush s)

theorem transmitterOff (s : State) : s.Moves ok s.transmitterOff := plain {}

theorem carried_nil {s : State} (h : s.Carried) (p : Paths) (hp : p.toTf = [] ∧ p.toOd = [] ∧ p.toRing = []) :
    ({ s with paths := p } : State).Carried := by
  obtain ⟨hring, _, _, hvalues⟩ := h
  obtain ⟨htf, hod, hr⟩ := hp
  refine ⟨hring, ?_, ?_, hvalues⟩
  · show ∀ t ∈ p.toTf ++ p.toOd, _
    rw [htf, hod]
    simp
  · show ∀ t ∈ p.toRing, _
    rw [hr]
    simp

theorem receiverOff (s : State) : s.Moves ok s.receiverOff := plain { carried := fun _ h => carried_nil h _ ⟨rfl, rfl, rfl⟩ }

theorem clearPeers (s : State) : s.Moves ok s.clearPeers := plain { rows := List.length_map _ }

/-- A change of every entry that touches neither its declared fields, its slot nor its value. -/
theorem mapEntries (s : State) {f : Entry → Entry} (hf : ∀ e, (f e).core = e.core) (hv : ∀ e, (f e).value = e.value)
    (hd : ∀ e, (f e).decl = e.decl) : s.Moves ok { s with od := { s.od with entries := s.od.entries.map f } } := by
  refine plain { cores := ?_, values := fun _ h x hx => ?_ }
  · show (s.od.entries.map f).map Entry.core = _
    rw [List.map_map]
    exact List.map_congr_left fun e _ => hf e
  · obtain ⟨e, he, rfl⟩ := List.mem_map.mp hx
    unfold Entry.ValueFits
    rw [hv, hd]
    exact h e he

theorem detachEntries (s : State) : s.Moves ok s.detachEntries := mapEntries s (fun _ => rfl) (fun _ => rfl) (fun _ => rfl)

theorem goOffLine (s : State) : s.Moves ok s.goOffLine :=
  (((transmitterOff s).trans (receiverOff _)).trans (clearPeers _)).trans (detachEntries _)

theorem mute {s : State} (h : s.sc.state ≠ .loading) : s.Moves ok s.mute := by
  have hmuted : StationState.muted.Configured := ⟨by decide, by decide⟩
  have hentered : s.Moves ok ({ s with sc := { s.sc with leaveTag := none, presenceTimer := none } }.enterState .muted .lineFailure 0#8) :=
    enterWith h hmuted
  have htimed : ∀ u : State, u.Moves ok { u with sc := { u.sc with muteTimer := some (u.sc.muteInterval.getD 0) } } := fun _ => plain {}
  refine hentered.trans (trans ?_ (htimed _))
  exact ((transmitterOff _).trans (flush _)).trans (loseAll _ _)

theorem faultStation {s : State} (h : s.sc.state ≠ .loading) : s.Moves ok s.faultStation := by
  have hfaulted : StationState.faulted.Configured := ⟨by decide, by decide⟩
  have hentered : s.Moves ok ({ s with sc := { s.sc with leaveTag := none, joinTimer := none, presenceTimer := none, muteTimer := none } }.enterState
      .faulted .duplicate 0#8) := enterWith h hfaulted
  refine hentered.trans (trans ?_ (clearPeers _))
  exact (((transmitterOff _).trans (receiverOff _)).trans (flush _)).trans (loseAll _ _)

theorem leaveDone {s : State} (h : s.sc.state ≠ .loading) : s.Moves ok s.leaveDone := by
  have hdetached : StationState.detached.Configured := ⟨by decide, by decide⟩
  have hentered : s.flush.Moves ok ({ s.flush with sc := { s.flush.sc with leaveTag := none } }.enterState .detached .leaveDone
      (s.sc.leaveTag.getD 0#8)) := enterWith h hdetached
  exact ((flush s).trans hentered).trans (goOffLine _)

theorem presenceOutcome (s : State) : s.Moves ok s.presenceOutcome := by
  unfold State.presenceOutcome
  split
  next => exact refl s
  next =>
    cases hp : s.sc.presence with
    | none | owed _ | queued _ => exact plain {}
    | inFlight st follow =>
      have hcleared : s.Moves ok { s with paths := { s.paths with presenceReport := none }, sc := { s.sc with presence := .none } } :=
        plain { presence := by rw [hp]; exact ⟨rfl, rfl⟩ }
      dsimp only
      split
      next hl => exact hcleared.trans (leaveDone (by rw [hl.2]; decide))
      next =>
        cases follow with
        | none => exact hcleared
        | some next => exact hcleared.trans (requestPresence _ _)

theorem slotsClearTaken (s : State) : s.Moves ok s.slotsClearTaken := by
  unfold State.slotsClearTaken
  split
  · dsimp only
    split
    · exact trans (plain {}) (requestPresence _ _)
    · exact plain {}
  · exact refl s

theorem mutedTaken (s : State) : s.Moves ok s.mutedTaken := by
  unfold State.mutedTaken
  split
  · have hpath : s.Moves ok { s with paths := { s.paths with mutedReport := false } } := plain {}
    dsimp only
    split
    next hst => exact hpath.trans (mute (by obtain h | h := hst <;> rw [h] <;> decide))
    next => exact hpath
  · exact refl s

theorem duplicateTaken (s : State) : s.Moves ok s.duplicateTaken := by
  unfold State.duplicateTaken
  split
  next => exact refl s
  next n _ =>
    have hpath : s.Moves ok { s with paths := { s.paths with duplicates := n } } := plain {}
    dsimp only
    split
    next hon =>
      refine hpath.trans (faultStation fun hl => ?_)
      rw [show s.sc.state = .loading from hl] at hon
      exact absurd hon (by decide)
    next => exact hpath

theorem muteExpired (s : State) : s.Moves ok s.muteExpired := by
  unfold State.muteExpired
  split
  next hst =>
    have hlistening : StationState.listening.Configured := ⟨by decide, by decide⟩
    have hentered : s.Moves ok ({ s with sc := { s.sc with muteTimer := none } }.enterState .listening .muteDone 0#8) :=
      enterWith (by rw [hst.1]; decide) hlistening
    exact hentered.trans (beginListening _)
  next => exact refl s

theorem joinListenExpired (s : State) (presenceFirst : Bool) : s.Moves ok (s.joinListenExpired presenceFirst) := by
  unfold State.joinListenExpired
  split
  next hst =>
    have hactive : StationState.active.Configured := ⟨by decide, by decide⟩
    have hstate : s.joinSweep.sc.state ≠ .loading := by
      rw [(State.Outside.joinSweep s).state]
      show s.sc.state ≠ _
      rw [hst.1]
      decide
    refine (joinSweep s).trans ?_
    generalize s.joinSweep = u at hstate
    have hentered : u.Moves ok ({ u with sc := { u.sc with joinTimer := none } }.enterState .active .listenDone 0#8) :=
      enterWith hstate hactive
    dsimp only
    split
    · exact hentered.trans ((startPresence _).trans (joinActions _))
    · exact hentered.trans ((joinActions _).trans (startPresence _))
  next => exact refl s

theorem presenceExpired (s : State) : s.Moves ok s.presenceExpired := by
  unfold State.presenceExpired
  split
  · have hsc : s.Moves ok { s with sc := { s.sc with presenceTimer := some s.ownPeriod } } := plain {}
    cases s.sc.presence with
    | none => exact hsc.trans (requestPresence _ _)
    | owed _ | queued _ | inFlight _ _ => exact hsc
  · exact refl s

end State.Moves

end Sys2Proof.Machine
end

section
/-! PROOFS. The requests, the filter, the line, the image and the port taken apart into moves, and the inversion of a command: a chain of moves, a pop of
the event queue, or a full restart. -/

namespace Sys2Proof.Machine

-- One proof is elaborated at a time: all that the text still has in flight here would not fit the check's memory limit.
set_option Elab.async false

/-! ## The ring -/

/-- The ring keeps four records (R107). -/
theorem length_ringAppend_le {ring : List Capture} (h : ring.length ≤ 4) (c : Capture) : (ringAppend ring c).length ≤ 4 := by
  unfold ringAppend
  split
  next hroom => rw [List.length_append]; exact hroom
  next => simp; omega

/-- What the ring holds after an append is the record appended or was there. -/
theorem mem_ringAppend {ring : List Capture} {c x : Capture} (h : x ∈ ringAppend ring c) : x ∈ ring ∨ x = c := by
  unfold ringAppend at h
  rw [List.mem_append, List.mem_singleton] at h
  refine h.imp_left fun h => ?_
  split at h
  · exact h
  · exact List.mem_of_mem_tail h

namespace State.Moves

variable {ok : Prop}

/-! ## Requests -/

theorem withRequest {s : State} {c : RequestCode} {k : Request → State} (h : ∀ r, s.Moves ok (k r)) : s.Moves ok (s.withRequest c k) := by
  unfold State.withRequest
  split
  · split
    · exact h _
    · exact refl s
  all_goals exact refl s

/-- LP's completion with a response that fits the response area. -/
theorem complete (s : State) {r : Response} (h : ok → r.value.length ≤ 32) : s.Moves ok (s.complete r) :=
  plain { lp := fun hok hlp => ⟨hlp.1, h hok⟩ }

theorem answer (s : State) (r : Request) (st : Status) : s.Moves ok (s.answer r st) := complete s fun _ => by simp [Request.answer]

theorem accepting {s : State} {c : RequestCode} {k : Request → State} (h : ∀ r, c.acceptedIn s.sc.state = true → s.Moves ok (k r)) :
    s.Moves ok (s.accepting c k) := by
  refine withRequest fun r => ?_
  split
  next hc => exact h r hc
  next => exact answer s r _

theorem atObject {s : State} {r : Request} {k : Nat → Entry → State} (h : ∀ i e, s.entry? i = some e → s.Moves ok (k i e)) :
    s.Moves ok (s.atObject r k) := by
  unfold State.atObject
  split
  · exact answer s r _
  · split
    · exact answer s r _
    next e he => exact h _ e he

/-- The value an entry holds fits a response where the tables keep their sizes. -/
theorem readTaken {s : State} (hok : ok → s.TablesInv) (r : Request) : s.Moves ok (s.readTaken r) := by
  refine atObject fun i e he => complete s fun h => ?_
  obtain ⟨k, _, _, hk⟩ := s.entry?_lt he
  obtain ⟨_, hentries, _⟩ := hok h
  obtain ⟨⟨_, _, _, hmax, _⟩, hvalue⟩ := hentries e (List.mem_of_getElem? hk)
  exact Nat.le_trans hvalue hmax

/-- A WRITE's bytes are at most as many as its length says. -/
theorem writeValue {s : State} {r : Request} {i : Nat} {e : Entry} (he : s.entry? i = some e) (hfits : r.length.toNat ≤ e.decl.maxLength) :
    s.Moves ok (s.writeValue r i e) := by
  have hbytes : r.bytes.length ≤ e.decl.maxLength := Nat.le_trans (List.length_take_le _ _) hfits
  have hwritten : s.Moves ok (s.modify i fun x => { x with value := r.bytes, version := some (nextVersion e.version) }) := by
    rw [State.modify_eq_put he]
    exact put he rfl fun _ _ => hbytes
  exact (hwritten.trans (requestChange _ i)).trans (complete _ fun _ => by simp [Request.answer])

theorem writeTaken (s : State) (r : Request) : s.Moves ok (s.writeTaken r) := by
  refine atObject fun i e he => ?_
  split
  next =>
    split
    · exact answer s r _
    next hfits => exact writeValue he (Nat.not_lt.mp hfits)
  all_goals exact answer s r _

theorem claimTaken (s : State) (r : Request) : s.Moves ok (s.claimTaken r) := by
  refine atObject fun i e _ => ?_
  split
  · exact answer s r _
  · split
    · exact answer s r _
    · exact ((modify s i).trans (startClaim _ i)).trans (answer _ r _)

theorem releaseTaken (s : State) (r : Request) : s.Moves ok (s.releaseTaken r) := by
  refine atObject fun i e _ => ?_
  split
  next => exact ((modify s i).trans (startYield _ i _)).trans (answer _ r _)
  next => exact (cancelClaim s i).trans (answer _ r _)
  all_goals exact answer s r _

theorem queryTaken (s : State) (r : Request) : s.Moves ok (s.queryTaken r) := by
  refine atObject fun i e he => ?_
  split
  · exact answer s r _
  next hfree =>
    refine (requestQuery ⟨e, he, ?_⟩).trans (answer _ r _)
    cases hs : e.slot with
    | none => rfl
    | waiting _ | owed _ | queued _ | inFlight _ _ => simp [hs, Slot.isNone] at hfree

theorem peerTaken (s : State) (r : Request) : s.Moves ok (s.peerTaken r) := by
  unfold State.peerTaken
  split
  · exact answer s r _
  · split
    · exact answer s r _
    · exact complete s fun _ => show [_, _, _].length ≤ 32 by simp

theorem takeUnlistedTaken {s : State} (hok : ok → s.TablesInv) (r : Request) : s.Moves ok (s.takeUnlistedTaken r) := by
  unfold State.takeUnlistedTaken
  split
  next => exact answer s r _
  next c rest hring =>
    refine plain { carried := fun _ h => ?_, lp := fun h hlp => ⟨hlp.1, ?_⟩ }
    · obtain ⟨hlen, hpaths, hr, hvalues⟩ := h
      rw [hring] at hlen hvalues
      exact ⟨Nat.le_trans (Nat.le_succ _) hlen, hpaths, hr, fun x hx => hvalues x (List.mem_cons_of_mem _ hx)⟩
    · obtain ⟨_, _, _, _, _, _, _, hvalues⟩ := hok h
      exact hvalues c (by rw [hring]; exact List.mem_cons_self)

theorem countersTaken (s : State) (r : Request) : s.Moves ok (s.countersTaken r) :=
  plain { lp := fun _ hlp => ⟨hlp.1, show s.eu.counters.bytes.length ≤ 32 by simp [Counters.bytes]⟩ }

theorem attendTaken (s : State) (r : Request) : s.Moves ok (s.attendTaken r) :=
  plain { lp := fun _ hlp => ⟨hlp.1, show [_].length ≤ 32 by simp⟩ }

theorem status (s : State) (r : Request) : s.Moves ok (s.complete (s.statusResponse r)) :=
  complete s fun _ => show [_, _, _, _, _, _, _].length ≤ 32 by simp

theorem joinTaken {s : State} (h : s.sc.state ≠ .loading) (r : Request) : s.Moves ok (s.joinTaken r) :=
  ((enterState h (st := .listening) ⟨by decide, by decide⟩ _ _).trans (beginListening _)).trans (answer _ r _)

theorem leaveActive {s : State} (h : s.sc.state ≠ .loading) (r : Request) : s.Moves ok (s.leaveActive r) := by
  have hleaving : StationState.leaving.Configured := ⟨by decide, by decide⟩
  have htag : s.Moves ok { s with
      sc := { s.sc with leaveTag := some r.tag, presenceTimer := none }, paths := { s.paths with clearNotice := .notGiven } } := plain {}
  have hentered : ∀ u : State, u.sc.state ≠ .loading → u.Moves ok (u.enterState .leaving .leave r.tag) := fun u hu => enterState hu hleaving _ _
  exact (((htag.trans (hentered _ h)).trans (eachEntry leaveEntry _)).trans (judgeSlots _)).trans (answer _ r _)

theorem leaveQuiet {s : State} (h : s.sc.state ≠ .loading) (r : Request) : s.Moves ok (s.leaveQuiet r) := by
  have hdetached : StationState.detached.Configured := ⟨by decide, by decide⟩
  have hentered : s.Moves ok ({ s with sc := { s.sc with joinTimer := none, muteTimer := none } }.enterState .detached .leave r.tag) :=
    enterWith h hdetached
  exact ((hentered.trans (move (.dropPresence _))).trans (goOffLine _)).trans (answer _ r _)

theorem leaveTaken {s : State} (h : s.sc.state ≠ .loading) (r : Request) : s.Moves ok (s.leaveTaken r) := by
  unfold State.leaveTaken
  split
  · exact leaveActive h r
  · exact leaveQuiet h r

theorem restartLineTaken {s : State} (h : s.sc.state ≠ .loading) (r : Request) : s.Moves ok (s.restartLineTaken r) := by
  have hlistening : StationState.listening.Configured := ⟨by decide, by decide⟩
  have hentered := enterState (ok := ok) h hlistening .restartLine r.tag
  have htimers : ∀ u : State, u.Moves ok { u with
      sc := { u.sc with leaveTag := none, joinTimer := none, presenceTimer := none, muteTimer := none } } := fun _ => plain {}
  have hreset : ∀ u : State, u.Moves ok u.resetLine := fun _ => plain {}
  have hflushed := (hentered.trans (htimers _)).trans (move (.lineRestart _))
  exact (((hflushed.trans (clearPeers _)).trans (hreset _)).trans (beginListening _)).trans (answer _ r _)

/-! ## The Telegram Filter and the Peer Monitor -/

/-- A telegram routed to OD or to the ring. -/
theorem route (s : State) {t : Telegram} (hlen : ok → t.payload.length ≤ t.length.toNat) (hfits : t.length.toNat ≤ 32) :
    s.Moves ok (s.route t) := by
  unfold State.route
  split
  · exact refl s
  · split
    · refine plain { carried := fun hok ⟨hring, hpaths, hr, hvalues⟩ => ⟨hring, fun x hx => ?_, hr, hvalues⟩ }
      have hx : x ∈ s.paths.toTf ++ (s.paths.toOd ++ [t]) := hx
      rw [← List.append_assoc, List.mem_append, List.mem_singleton] at hx
      obtain hx | rfl := hx
      · exact hpaths x hx
      · exact hlen hok
    · split
      · refine plain { carried := fun hok ⟨hring, hpaths, hr, hvalues⟩ => ⟨hring, hpaths, fun x hx => ?_, hvalues⟩ }
        have hx : x ∈ s.paths.toRing ++ [t] := hx
        rw [List.mem_append, List.mem_singleton] at hx
        obtain hx | rfl := hx
        · exact hr x hx
        · exact Nat.le_trans (hlen hok) hfits
      · exact refl s

theorem filter (s : State) {t : Telegram} (hlen : ok → t.payload.length ≤ t.length.toNat) : s.Moves ok (s.filter t) := by
  unfold State.filter
  split
  · exact bump s _
  next hvalid =>
    split
    · exact plain {}
    · have hpasses : t.PassesChecks := t.valid_iff_passesChecks.mp (by simpa using hvalid)
      obtain ⟨_, _, _, hfits, _⟩ := hpasses
      have hheard : ∀ u : State, u.Moves ok { u with paths := { u.paths with toPm := u.paths.toPm ++ [t] } } := fun _ => plain {}
      exact ((bump s _).trans (hheard _)).trans (route _ hlen hfits)

theorem deliveredTelegram {s : State} (hok : ok → s.TablesInv) : s.Moves ok s.deliveredTelegram := by
  unfold State.deliveredTelegram
  split
  next => exact refl s
  next t rest ht =>
    have htaken : s.Moves ok { s with paths := { s.paths with toTf := rest } } := by
      refine plain { carried := fun _ ⟨hring, hpaths, hr, hvalues⟩ => ⟨hring, fun x hx => hpaths x ?_, hr, hvalues⟩ }
      rw [ht]
      exact List.mem_cons_of_mem t hx
    refine htaken.trans (filter _ fun h => ?_)
    · obtain ⟨_, _, _, _, _, hpaths, _⟩ := hok h
      exact hpaths t (by rw [ht]; exact List.mem_cons_self)

theorem capture (s : State) : s.Moves ok s.capture := by
  unfold State.capture
  split
  next => exact refl s
  next t rest ht =>
    have htaken : s.Moves ok { s with
        paths := { s.paths with toRing := rest }
        tf := { s.tf with ring := ringAppend s.tf.ring ⟨t.objectId, t.source, t.version, t.payload⟩ } } := by
      refine plain { carried := fun _ ⟨hring, hpaths, hr, hvalues⟩ => ⟨length_ringAppend_le hring _, hpaths, fun x hx => hr x ?_,
        fun c hc => ?_⟩ }
      · rw [ht]
        exact List.mem_cons_of_mem t hx
      · obtain hc | rfl := mem_ringAppend hc
        · exact hvalues c hc
        · exact hr t (by rw [ht]; exact List.mem_cons_self)
    exact htaken.trans (post _ _ _ _ _)

theorem takeHeard {s : State} {fits : Telegram → Bool} {k : State → PeerRow → Telegram → State} (h : ∀ (u : State) r t, u.Moves ok (k u r t)) :
    s.Moves ok (s.takeHeard fits k) := by
  unfold State.takeHeard
  split
  next => exact refl s
  next t rest _ =>
    split
    · have htaken : s.Moves ok { s with paths := { s.paths with toPm := rest } } := plain {}
      dsimp only
      split
      · exact htaken
      · exact htaken.trans (h _ _ t)
    · exact refl s

theorem setRow (s : State) (n : Nat) (r : PeerRow) : s.Moves ok (s.setRow n r) := by
  unfold State.setRow
  split
  · exact refl s
  · exact plain { rows := List.length_set }

theorem giveNotice (s : State) (n : Byte) (c : NoticeCause) : s.Moves ok (s.giveNotice n c) := plain {}

theorem heard (s : State) : s.Moves ok s.heard := by
  refine takeHeard fun u r t => ?_
  dsimp only
  split
  · exact setRow u _ _
  · exact (setRow u _ _).trans (post _ _ _ _ _)

theorem presenceHeard (s : State) : s.Moves ok s.presenceHeard := by
  refine takeHeard fun u r t => ?_
  have hjoined : u.Moves ok (if r.present then u.setRow t.source.toNat ⟨true, some t.objectId, t.period, some (3 * t.period)⟩
      else (u.setRow t.source.toNat ⟨true, some t.objectId, t.period, some (3 * t.period)⟩).postPeer .joined t.source) := by
    split
    · exact setRow u _ _
    · exact (setRow u _ _).trans (post _ _ _ _ _)
  dsimp only
  split
  next => exact hjoined
  next =>
    split
    · exact hjoined
    · exact (hjoined.trans (post _ _ _ _ _)).trans (giveNotice _ _ _)

theorem leavingHeard (s : State) : s.Moves ok s.leavingHeard :=
  takeHeard fun u _ _ => ((setRow u _ _).trans (post _ _ _ _ _)).trans (giveNotice _ _ _)

theorem silenceExpired (s : State) (n : Nat) : s.Moves ok (s.silenceExpired n) := by
  unfold State.silenceExpired
  split
  · exact refl s
  · split
    · exact ((setRow s _ _).trans (post _ _ _ _ _)).trans (giveNotice _ _ _)
    · exact refl s

/-! ## What OD takes from the other blocks -/

/-- A telegram routed to OD is taken off its path, with a payload no longer than its length says. -/
theorem takeRouted {s : State} (hok : ok → s.TablesInv) {kind : TelegramKind} {k : State → Nat → Entry → Telegram → State}
    (h : ∀ (u : State) i e (t : Telegram), (ok → t.payload.length ≤ t.length.toNat) → u.Moves ok (k u i e t)) :
    s.Moves ok (s.takeRouted kind k) := by
  unfold State.takeRouted
  split
  next => exact refl s
  next t rest ht =>
    split
    · have htaken : s.Moves ok { s with paths := { s.paths with toOd := rest } } := by
        refine plain { carried := fun _ ⟨hring, hpaths, hr, hvalues⟩ => ⟨hring, fun x hx => hpaths x ?_, hr, hvalues⟩ }
        have hx : x ∈ s.paths.toTf ++ rest := hx
        rw [ht]
        rw [List.mem_append] at hx ⊢
        exact hx.imp_right (List.mem_cons_of_mem t)
      have hlen : ok → t.payload.length ≤ t.length.toNat := fun h => by
        obtain ⟨_, _, _, _, _, hpaths, _⟩ := hok h
        exact hpaths t (by rw [ht]; simp)
      dsimp only
      split
      · exact htaken
      · exact htaken.trans (withEntry fun e _ => h _ _ e t hlen)
    · exact refl s

theorem publishReceived {s : State} (hok : ok → s.TablesInv) : s.Moves ok s.publishReceived :=
  takeRouted hok fun u i e _ hlen => (publishAtEntry u i e hlen).trans (judgeSlots _)

theorem claimReceived {s : State} (hok : ok → s.TablesInv) : s.Moves ok s.claimReceived :=
  takeRouted hok fun u i e t _ => claimAtEntry u i e t

theorem yieldReceived {s : State} (hok : ok → s.TablesInv) : s.Moves ok s.yieldReceived :=
  takeRouted hok fun u i e t _ => yieldAtEntry u i e t

theorem queryReceived {s : State} (hok : ok → s.TablesInv) : s.Moves ok s.queryReceived :=
  takeRouted hok fun u i e t _ => queryAtEntry u i e t

theorem peerNotice (s : State) : s.Moves ok s.peerNotice := by
  unfold State.peerNotice
  split
  · exact refl s
  · exact trans (plain {}) (noticeAtOd _ _)

theorem outcomeReport (s : State) : s.Moves ok s.outcomeReport := by
  unfold State.outcomeReport
  split
  · exact refl s
  · exact (trans (plain {}) (outcomeAtEntry _ _ _)).trans (judgeSlots _)

/-! ## The Image Loader -/

theorem imageFailed {s : State} (h : s.Early) (f : FaultCode) (index : Nat) (tag : Byte) : s.Moves ok (s.imageFailed f index tag) :=
  have hfailed : s.Moves ok { s with
      il := { s.il with phase := .awaitingLoad, fault := f, faultIndex := index }, sc := { s.sc with state := .unconfigured } } :=
    plain { reads := fun hr => absurd hr (by simp [Phase.isReading]), early := fun _ => h, il := fun _ hil => ⟨hil.1, trivial⟩ }
  hfailed.trans (post _ _ _ _ _)

theorem imageLoaded {s : State} (h : s.Early) {im : Image} (hv : s.il.staging.validate = .ok im) (tag : Byte) :
    s.Moves ok (s.imageLoaded im tag) := by
  unfold State.imageLoaded
  split
  · exact ((move (.install h hv (.inl rfl))).trans (postStation _ _ _)).trans (beginListening _)
  · exact (move (.install h hv (.inr rfl))).trans (postStation _ _ _)

theorem validated {s : State} (h : s.Early) (tag : Byte) : s.Moves ok (s.validated tag) := by
  unfold State.validated
  split
  next im hv => exact imageLoaded h hv tag
  next f index hv => exact imageFailed h f index tag

/-- Bytes written within the staging buffer, below offset 8 or above it where part 2 is being read. -/
theorem stage {s : State} {at' : Nat} {bytes : List Byte} (hfits : s.il.Fits → bytes = [] ∨ at' + bytes.length ≤ 659)
    (hcount : (s.il.phase.isReading = true → s.sc.state = .loading) → (∀ failed, s.il.phase ≠ .reading .remainder failed) ∨ 8 < at') :
    s.Moves ok (s.stage at' bytes) := by
  refine plain { il := fun hreads hil => ?_ }
  have hcount := hcount hreads
  have hfits := hfits hil
  obtain ⟨⟨hwf, hwithin⟩, hphase⟩ := hil
  refine ⟨⟨Memory.wf_writeAll _ _ _ hwf, ?_⟩, ?_⟩
  · obtain rfl | hfits := hfits
    · exact hwithin
    · exact Memory.within_writeAll _ _ _ hfits hwithin
  · show match s.il.phase with
      | .reading .remainder _ => 1 ≤ (s.il.staging.writeAll at' bytes).entryCount ∧ (s.il.staging.writeAll at' bytes).entryCount ≤ 64
      | .reading .header _ | .reading (.wait _) _ | .awaitingLoad | .installed => True
    obtain hnot | hat := hcount
    · split
      next failed hp => exact absurd hp (hnot failed)
      all_goals trivial
    · have hread : (s.il.staging.writeAll at' bytes).entryCount = s.il.staging.entryCount := by
        unfold Memory.entryCount
        rw [Memory.read_writeAll _ _ _ _ hwf, if_neg (by omega)]
      rw [hread]
      exact hphase

theorem headerRead (s : State) (bytes : List Byte) : s.Moves ok (s.headerRead bytes) := by
  unfold State.headerRead
  split
  next failed hp =>
    split
    next hlen =>
      have hearly : s.Early := .inl (by rw [hp]; rfl)
      have hlen : bytes.length = 17 := hlen
      have hstaged : s.Moves ok (s.stage 0 bytes) := stage (fun _ => .inr (by omega)) (fun _ => .inl (by simp [hp]))
      dsimp only
      split
      next f hf => exact hstaged.trans (imageFailed (s := s.stage 0 bytes) hearly f 0 0#8)
      next hf =>
        refine hstaged.trans (plain { reads := fun _ => ⟨by show s.il.phase.isReading = true; rw [hp]; rfl, id⟩, early := fun _ => hearly, il := ?_ })
        refine fun _ hil => ⟨hil.1, ?_⟩
        show 1 ≤ (s.stage 0 bytes).il.staging.entryCount ∧ (s.stage 0 bytes).il.staging.entryCount ≤ 64
        generalize (s.stage 0 bytes).il.staging = m at hf
        unfold Memory.headerFault at hf
        split at hf
        · cases hf
        · split at hf
          · cases hf
          next hcount => exact Classical.not_not.mp hcount
    next => exact refl s
  all_goals exact refl s

theorem remainderRead (s : State) (bytes : List Byte) : s.Moves ok (s.remainderRead bytes) := by
  unfold State.remainderRead
  split
  next failed hp =>
    split
    next hlen =>
      have hearly : s.Early := .inl (by rw [hp]; rfl)
      refine trans (stage (fun hil => .inr ?_) fun _ => .inr (show 8 < Config.headerBytes by decide))
        (validated (s := s.stage Config.headerBytes bytes) hearly 0#8)
      unfold Il.Fits at hil
      rw [hp] at hil
      obtain ⟨_, _, hmax⟩ := hil
      show 17 + bytes.length ≤ 659
      omega
    next => exact refl s
  all_goals exact refl s

end State.Moves

end Sys2Proof.Machine
end

section
/-! PROOFS. LOAD, the line and the port taken apart into moves, and the inversion of a command: a chain of moves, a pop of the event queue, or a full
restart. -/

namespace Sys2Proof.Machine

-- One proof is elaborated at a time: all that the text still has in flight here would not fit the check's memory limit.
set_option Elab.async false

namespace State.Moves

variable {ok : Prop}

/-! ## LOAD and the memory read -/

theorem attemptFailedAfter {s : State} (h : s.il.phase.isReading = true) (failed : Nat) : s.Moves ok (s.attemptFailedAfter failed) := by
  unfold State.attemptFailedAfter
  split
  · exact plain { il := fun _ hil => ⟨hil.1, trivial⟩, reads := fun _ => ⟨h, id⟩, early := fun _ => .inl h }
  · exact imageFailed (.inl h) _ _ _

theorem attemptFailed (s : State) : s.Moves ok s.attemptFailed := by
  unfold State.attemptFailed
  split
  next hp => exact attemptFailedAfter (by rw [hp]; rfl) _
  next hp => exact attemptFailedAfter (by rw [hp]; rfl) _
  all_goals exact refl s

theorem attemptWaitExpired (s : State) : s.Moves ok s.attemptWaitExpired := by
  unfold State.attemptWaitExpired
  split
  next failed hp =>
    have hreading : s.il.phase.isReading = true := by rw [hp]; rfl
    exact plain { il := fun _ hil => ⟨hil.1, trivial⟩, reads := fun _ => ⟨hreading, id⟩, early := fun _ => .inl hreading }
  all_goals exact refl s

/-- The bytes of an accepted LOAD lie within the staging buffer (R168). -/
theorem loadBytes {s : State} {r : Request} (hst : s.sc.state = .unconfigured) (h : r.loadRefusal = none) : s.Moves ok (s.loadBytes r) := by
  refine stage (fun _ => ?_) fun hreads => .inl fun failed hp => ?_
  · have hlen : r.bytes.length ≤ r.length.toNat := List.length_take_le _ _
    unfold Request.loadRefusal at h
    split at h
    · cases h
    · split at h
      next hzero => exact .inl (List.eq_nil_of_length_eq_zero (by omega))
      next =>
        split at h
        · cases h
        next hsize =>
          have hsize : ¬ 659 < r.objectId.toNat + r.length.toNat := hsize
          exact .inr (by omega)
  · have hloading := hreads (by rw [hp]; rfl)
    rw [hst] at hloading
    cases hloading

theorem loadTaken {s : State} (hst : s.sc.state = .unconfigured) (r : Request) : s.Moves ok (s.loadTaken r) := by
  unfold State.loadTaken
  split
  next => exact answer s r _
  next hr => exact (loadBytes hst hr).trans (answer _ r _)

theorem loadFinishTaken {s : State} (hst : s.sc.state = .unconfigured) (r : Request) : s.Moves ok (s.loadFinishTaken r) := by
  unfold State.loadFinishTaken
  split
  next => exact answer s r _
  next hr =>
    have hearly : (s.loadBytes r).Early := .inr (.inr hst)
    dsimp only
    split
    next im hv => exact ((loadBytes hst hr).trans (imageLoaded hearly hv r.tag)).trans (answer _ r _)
    next f index _ => exact ((loadBytes hst hr).trans (imageFailed hearly f index r.tag)).trans (complete _ fun _ => by simp [Request.imageFault, Request.answer])

/-! ## The Line Controller -/

theorem lineQuiet (s : State) : s.Moves ok s.lineQuiet := by
  unfold State.lineQuiet
  split
  · exact plain {}
  · exact refl s

theorem lineBusy (s : State) : s.Moves ok s.lineBusy := by
  unfold State.lineBusy
  split
  · exact plain {}
  · exact refl s

theorem take (s : State) (age : Nat) : s.Moves ok (s.take age) := by
  unfold State.take
  split
  · split
    next i rest hq => exact move (.takeUrgent hq)
    next =>
      split
      next => exact refl s
      next r rest hq =>
        split
        · exact move (.takeRoutine hq)
        · exact refl s
  · exact refl s

theorem startAttempt (s : State) (h : Held) : s.Moves ok (s.startAttempt h) := plain {}

theorem retryAttempt (s : State) (age : Nat) : s.Moves ok (s.retryAttempt age) := by
  unfold State.retryAttempt
  split
  next =>
    split
    · exact startAttempt s _
    · exact refl s
  all_goals exact refl s

theorem report (s : State) (r : Ref) (outcome : TxOutcome) : s.Moves ok (s.report r outcome) := by
  cases r with
  | entry _ | presence => exact plain {}

theorem recover (s : State) : s.Moves ok s.recover := by
  unfold State.recover
  split
  · exact trans (plain {}) (postStation _ _ _)
  · exact refl s

/-- A change of the Line Controller's record alone. -/
theorem line (s : State) (x : Lc) : s.Moves ok { s with lc := x } := plain {}

theorem sent (s : State) : s.Moves ok s.sent := by
  unfold State.sent
  split
  next => exact (((line s _).trans (report _ _ _)).trans (bump _ _)).trans (recover _)
  all_goals exact refl s

theorem collide (s : State) (bit : Nat) (level : Bool) : s.Moves ok (s.collide bit level) := by
  unfold State.collide
  split
  next =>
    split
    · split
      · exact refl s
      · exact (line s _).trans (bump _ _)
    · exact refl s
  all_goals exact refl s

theorem abandon (s : State) (h : Held) : s.Moves ok (s.abandon h) := by
  have hcounted : s.Moves ok ((({ s with lc := { s.lc with tx := .idle, abandons := s.lc.abandons + 1 } } : State).report h.ref .abandoned).bump .abandoned) :=
    ((line s _).trans (report _ _ _)).trans (bump _ _)
  have hmuted : ∀ u : State, u.Moves ok { u with paths := { u.paths with mutedReport := true } } := fun _ => plain {}
  unfold State.abandon
  dsimp only
  split
  · exact hcounted
  · exact ((hcounted.trans (line _ _)).trans (postStation _ _ _)).trans (hmuted _)

theorem jamEnd (s : State) : s.Moves ok s.jamEnd := by
  unfold State.jamEnd
  split
  next =>
    split
    · exact plain {}
    · exact abandon s _
  all_goals exact refl s

/-- A reception that is framed keeps no more payload than its length field says (R120). -/
theorem payload_ofBytes_le {bytes : List Byte} (h : framed bytes = true) :
    (Telegram.ofBytes bytes).payload.length ≤ (Telegram.ofBytes bytes).length.toNat := by
  simp only [framed, decide_eq_true_eq] at h
  show (((bytes.drop 6).take (bytes.length - 8)).take 32).length ≤ (bytes.getD 5 0#8).toNat
  simp only [List.length_take, List.length_drop]
  omega

theorem receivedBytes (s : State) (bytes : List Byte) : s.Moves ok (s.receivedBytes bytes) := by
  unfold State.receivedBytes
  split
  next hgood =>
    rw [Bool.and_eq_true] at hgood
    refine plain { carried := fun _ ⟨hring, hpaths, hr, hvalues⟩ => ⟨hring, fun x hx => ?_, hr, hvalues⟩ }
    have hx : x ∈ s.paths.toTf ++ [Telegram.ofBytes bytes] ++ s.paths.toOd := hx
    simp only [List.mem_append, List.mem_singleton] at hx
    obtain (hx | rfl) | hx := hx
    · exact hpaths x (List.mem_append_left _ hx)
    · exact payload_ofBytes_le hgood.1
    · exact hpaths x (List.mem_append_right _ hx)
  next => exact bump s _

theorem reception (s : State) (levels : List Bool) : s.Moves ok (s.reception levels) := by
  unfold State.reception
  split
  · split
    · exact (line s _).trans (bump _ _)
    · exact (line s _).trans (receivedBytes _ _)
    all_goals exact refl s
  · exact refl s

/-! ## The port and the timebase -/

theorem submitWritten (s : State) : s.Moves ok s.submitWritten := by
  unfold State.submitWritten
  split
  · refine plain { lp := fun _ hlp => ⟨hlp.1, ?_⟩ }
    dsimp only
    split
    next heq =>
      split at heq
      · cases heq; exact hlp.1
      · cases heq
    next heq =>
      split at heq
      · cases heq
      · cases heq; simp [Request.answer]
    next => trivial
  all_goals exact plain {}

theorem retireWritten (s : State) : s.Moves ok s.retireWritten := by
  unfold State.retireWritten
  split
  · exact plain { lp := fun _ hlp => ⟨hlp.1, trivial⟩ }
  all_goals exact refl s

theorem portWritten {s : State} {addr : BitVec 6} (h : addr.toNat ≠ 51) (byte : Byte) : s.Moves ok (s.portWritten addr byte) := by
  unfold State.portWritten
  dsimp only
  rw [if_neg h]
  split
  next ha =>
    exact plain { lp := fun _ ⟨⟨hwf, hwithin⟩, hport⟩ => ⟨⟨Memory.wf_write _ _ _ hwf, Memory.within_write _ ha _ hwithin⟩, hport⟩ }
  · split
    · exact submitWritten s
    · split
      · exact retireWritten s
      · exact refl s

theorem tick (s : State) : s.Moves ok s.tick := by
  have hentries := mapEntries (ok := ok) s (f := Entry.tick) (fun _ => rfl) (fun _ => rfl) (fun _ => rfl)
  have hphase : s.il.phase.tick.isReading = true → s.il.phase.isReading = true := by
    cases s.il.phase with
    | reading step failed => exact fun _ => rfl
    | awaitingLoad | installed => exact id
  have hil : s.il.Fits → ({ s.il with phase := s.il.phase.tick } : Il).Fits := by
    refine fun hil => ⟨hil.1, ?_⟩
    have hstep := hil.2
    cases hp : s.il.phase with
    | reading step failed =>
      cases step with
      | header | wait _ => trivial
      | remainder => rw [hp] at hstep; exact hstep
    | awaitingLoad | installed => trivial
  exact hentries.trans (plain {
    rows := List.length_map _, il := fun _ => hil, reads := fun h => ⟨hphase h, id⟩, early := fun h => h.imp_left hphase })

end State.Moves

/-! ## A command -/

/-- What a command can do: moves, the pop of EVENT NEXT, or a full restart. -/
inductive State.Stepped (c : Instr) (s t : State) : Prop
  | moves : s.Moves s.TablesInv t → Stepped c s t
  | popped : (c = .eventNext ∨ ∃ addr byte, c = .portWrite addr byte ∧ addr.toNat = 51) → t = s.popEvent → Stepped c s t
  | restarted (low : Bool) (cause : StationCause) : (c = .powerUp ∨ c = .rstNRelease ∨ c = .restartFull) →
      t = { s with rstLow := low }.fullRestart cause → Stepped c s t

/-- An effect by moves, with RST_N at either level. -/
theorem State.Stepped.taken {c : Instr} {s t : State} {f : State → State} (hf : s.Moves s.TablesInv (f s)) (h : s.taken f = .next t) :
    State.Stepped c s t := by
  refine .moves ?_
  obtain rfl := (Host.Outcome.next.inj h).symm
  split
  · exact State.Moves.refl s
  · exact hf

/-- A request's effect by moves. -/
theorem State.Stepped.accepting {i : Instr} {s t : State} {c : RequestCode} {k : State → Request → State}
    (hk : ∀ r, c.acceptedIn s.sc.state = true → s.Moves s.TablesInv (k s r)) (h : s.taken (fun s => s.accepting c (k s)) = .next t) :
    State.Stepped i s t := State.Stepped.taken (f := fun s => s.accepting c (k s)) (State.Moves.accepting hk) h

theorem State.Stepped.request {i : Instr} {s t : State} {c : RequestCode} {k : State → Request → State}
    (hk : ∀ r, s.Moves s.TablesInv (k s r)) (h : s.taken (fun s => s.withRequest c (k s)) = .next t) :
    State.Stepped i s t := State.Stepped.taken (f := fun s => s.withRequest c (k s)) (State.Moves.withRequest hk) h

/-- A request that is accepted in configured states alone is not taken in LOADING. -/
theorem RequestCode.not_loading {c : RequestCode} {st : StationState} (h : c.acceptedIn st = true) (hc : c.acceptedIn .loading = false) :
    st ≠ .loading := by
  rintro rfl
  rw [hc] at h
  cases h

theorem RequestCode.load_acceptedIn {st : StationState} (h : RequestCode.load.acceptedIn st = true) : st = .unconfigured :=
  of_decide_eq_true h

/-- The inversion of a command. -/
theorem exec_stepped {c : Instr} {s t : State} (h : exec c s = .next t) : State.Stepped c s t := by
  cases c with
  | powerUp => exact .restarted s.rstLow .reset (.inl rfl) (Host.Outcome.next.inj h).symm
  | rstNAssert =>
    obtain rfl := (Host.Outcome.next.inj h).symm
    exact .moves (.plain {})
  | rstNRelease =>
    obtain rfl := (Host.Outcome.next.inj h).symm
    by_cases hlow : s.rstLow = true
    · exact .restarted false .reset (.inr (.inl rfl)) (if_pos hlow)
    · exact .moves (by rw [if_neg hlow]; exact .refl s)
  | restartFull =>
    obtain rfl := (Host.Outcome.next.inj h).symm
    by_cases hlow : s.rstLow = true
    · exact .moves (by rw [if_pos hlow]; exact .refl s)
    · rw [if_neg hlow]
      dsimp only [State.withRequest]
      cases s.lp.port with
      | ready | done _ => exact .moves (.refl s)
      | working area =>
        dsimp only
        split
        · split
          · exact .restarted s.rstLow .restartFull (.inr (.inr rfl)) rfl
          · exact .moves (.refl s)
        · exact .moves (.refl s)
  | eventNext =>
    obtain rfl := (Host.Outcome.next.inj h).symm
    split
    · exact .moves (.refl s)
    · exact .popped (.inl rfl) rfl
  | portWrite addr byte =>
    by_cases ha : addr.toNat = 51
    · obtain rfl := (Host.Outcome.next.inj h).symm
      split
      · exact .moves (.refl s)
      · refine .popped (.inr ⟨addr, byte, rfl, ha⟩) ?_
        simp [State.portWritten, ha, Config.areaSize]
    · exact .taken (f := (·.portWritten addr byte)) (.portWritten ha byte) h
  | submit => exact .taken (.submitWritten s) h
  | retire => exact .taken (.retireWritten s) h
  | read => exact .accepting (fun r _ => .readTaken id r) h
  | write => exact .accepting (fun r _ => .writeTaken s r) h
  | claim => exact .accepting (fun r _ => .claimTaken s r) h
  | release => exact .accepting (fun r _ => .releaseTaken s r) h
  | query => exact .accepting (fun r _ => .queryTaken s r) h
  | peer => exact .accepting (fun r _ => .peerTaken s r) h
  | status => exact .accepting (k := fun s r => s.complete (s.statusResponse r)) (fun r _ => .status s r) h
  | counters => exact .accepting (fun r _ => .countersTaken s r) h
  | takeUnlisted => exact .accepting (fun r _ => .takeUnlistedTaken id r) h
  | attend => exact .accepting (fun r _ => .attendTaken s r) h
  | join => exact .accepting (fun r ha => .joinTaken (RequestCode.not_loading ha rfl) r) h
  | leave => exact .accepting (fun r ha => .leaveTaken (RequestCode.not_loading ha rfl) r) h
  | restartLine =>
    refine .request (c := .restart) (k := fun s r => if r.first = 1#8 then s.accepting .restart s.restartLineTaken else s) (fun r => ?_) h
    split
    · exact .accepting fun r ha => .restartLineTaken (RequestCode.not_loading ha rfl) r
    · exact .refl s
  | load =>
    refine .request (c := .load) (k := fun s r => if r.finish then s else s.accepting .load s.loadTaken) (fun r => ?_) h
    split
    · exact .refl s
    · exact .accepting fun r ha => .loadTaken (RequestCode.load_acceptedIn ha) r
  | loadFinish =>
    refine .request (c := .load) (k := fun s r => if r.finish then s.accepting .load s.loadFinishTaken else s) (fun r => ?_) h
    split
    · exact .accepting fun r ha => .loadFinishTaken (RequestCode.load_acceptedIn ha) r
    · exact .refl s
  | readHeader bytes => exact .taken (f := (·.headerRead bytes)) (.headerRead s bytes) h
  | readRemainder bytes => exact .taken (f := (·.remainderRead bytes)) (.remainderRead s bytes) h
  | attemptFailed => exact .taken (.attemptFailed s) h
  | attemptWaitExpiry => exact .taken (.attemptWaitExpired s) h
  | lineQuiet => exact .taken (.lineQuiet s) h
  | lineBusy => exact .taken (.lineBusy s) h
  | take age => exact .taken (f := (·.take age)) (.take s age) h
  | retryAttempt age => exact .taken (f := (·.retryAttempt age)) (.retryAttempt s age) h
  | sent => exact .taken (.sent s) h
  | collision bit level => exact .taken (f := (·.collide bit level)) (.collide s bit level) h
  | jamEnd => exact .taken (.jamEnd s) h
  | reception levels => exact .taken (f := (·.reception levels)) (.reception s levels) h
  | deliveredTelegram => exact .taken (.deliveredTelegram id) h
  | duplicate => exact .taken (.duplicateTaken s) h
  | capture => exact .taken (.capture s) h
  | heard => exact .taken (.heard s) h
  | presenceHeard => exact .taken (.presenceHeard s) h
  | leavingPresenceHeard => exact .taken (.leavingHeard s) h
  | peerNotice => exact .taken (.peerNotice s) h
  | publishReceived => exact .taken (.publishReceived id) h
  | claimReceived => exact .taken (.claimReceived id) h
  | yieldReceived => exact .taken (.yieldReceived id) h
  | queryReceived => exact .taken (.queryReceived id) h
  | outcomeReport => exact .taken (.outcomeReport s) h
  | slotsClearNotice => exact .taken (.slotsClearTaken s) h
  | presenceOutcome => exact .taken (.presenceOutcome s) h
  | mutedReport => exact .taken (.mutedTaken s) h
  | freshnessDeadlineExpiry index => exact .taken (f := (·.freshnessExpired index)) (.freshnessExpired s index) h
  | refreshTimerExpiry index => exact .taken (f := (·.refreshExpired index)) (.refreshExpired s index) h
  | spacingTimerExpiry index => exact .taken (f := (·.spacingExpired index)) (.spacingExpired s index) h
  | claimWindowExpiry index => exact .taken (f := (·.windowExpired index)) (.windowExpired s index) h
  | takeoverTimerExpiry index => exact .taken (f := (·.takeoverExpired index)) (.takeoverExpired s index) h
  | silenceDeadlineExpiry station => exact .taken (f := (·.silenceExpired station)) (.silenceExpired s station) h
  | joinListenExpiry presenceFirst => exact .taken (f := (·.joinListenExpired presenceFirst)) (.joinListenExpired s presenceFirst) h
  | presenceTimerExpiry => exact .taken (.presenceExpired s) h
  | muteTimerExpiry => exact .taken (.muteExpired s) h
  | millisecondTick => exact .taken (.tick s) h

end Sys2Proof.Machine
end

section
/-! PROOFS. What the moves do to the event queue and the waiting commands (R195 to R197), what they leave of the tables and the buffers, how an
invariant of a step follows from the moves, and from these the statements O2, O53 and O54. -/

namespace Sys2Proof.Machine

-- One proof is elaborated at a time: all that the text still has in flight here would not fit the check's memory limit.
set_option Elab.async false

/-! ## Moves of telegrams and records -/

/-- What an entry holds apart from its states: the declared fields and the value. -/
def Entry.held (e : Entry) : Decl × List Byte := (e.decl, e.value)

/-- t differs from s in telegrams on their way, in states of entries and in records added to the event queue: the tables, the buffers, the station
state and what is received and not yet taken stand. A field that is not named holds by the record update itself. -/
structure State.Reslots (s t : State) : Prop where
  pending : t.pending = s.pending := by rfl
  records : s.eu.queue <+: t.eu.queue := by exact List.prefix_rfl
  events : s.EventsInv → t.EventsInv := by exact id
  held : t.od.entries.map Entry.held = s.od.entries.map Entry.held := by rfl
  pm : t.pm = s.pm := by rfl
  tf : t.tf = s.tf := by rfl
  il : t.il = s.il := by rfl
  lp : t.lp = s.lp := by rfl
  station : t.sc.state = s.sc.state := by rfl
  toTf : t.paths.toTf = s.paths.toTf := by rfl
  toOd : t.paths.toOd = s.paths.toOd := by rfl
  toRing : t.paths.toRing = s.paths.toRing := by rfl

namespace State.Reslots

theorem refl (s : State) : s.Reslots s := {}

theorem trans {s t u : State} (h : s.Reslots t) (k : t.Reslots u) : s.Reslots u where
  pending := k.pending.trans h.pending
  records := h.records.trans k.records
  events := k.events ∘ h.events
  held := k.held.trans h.held
  pm := k.pm.trans h.pm
  tf := k.tf.trans h.tf
  il := k.il.trans h.il
  lp := k.lp.trans h.lp
  station := k.station.trans h.station
  toTf := k.toTf.trans h.toTf
  toOd := k.toOd.trans h.toOd
  toRing := k.toRing.trans h.toRing

theorem post (s : State) (k : EventKind) (id : BitVec 12) (tag : Byte) (v : Option Byte) : s.Reslots (s.post k id tag v) := by
  have hev := State.eventsInv_post s k id tag v
  by_cases hq : s.eu.queue.length < 32
  · rw [s.post_room k id tag v hq] at hev ⊢
    exact { records := List.prefix_append _ _, events := hev }
  · rw [s.post_full k id tag v hq] at hev ⊢
    exact { events := hev }

theorem postStation (s : State) (k : EventKind) (tag : Byte) : s.Reslots (s.postStation k tag) := post s _ _ _ _

theorem bump (s : State) (c : Counter) : s.Reslots (s.bump c) := by
  by_cases h : s.eu.counters.get c = 65535#16
  · rw [State.bump_saturated h]
    exact refl s
  · rw [State.bump_counts h]
    split
    · have harm : s.Reslots { s.counted c with eu := { (s.counted c).eu with harvestArmed := false } } := {}
      exact harm.trans (post _ _ _ _ _)
    · exact {}

theorem withEntry {s : State} {i : Nat} {k : Entry → State} (h : ∀ e, s.entry? i = some e → s.Reslots (k e)) : s.Reslots (s.withEntry i k) := by
  cases he : s.entry? i with
  | none => rw [State.withEntry_none he]; exact refl s
  | some e => rw [State.withEntry_some he]; exact h e he

theorem held_modify {f : Entry → Entry} (hf : ∀ e, (f e).held = e.held) :
    ∀ (l : List Entry) (k : Nat), (l.modify k f).map Entry.held = l.map Entry.held
  | [], 0 => rfl
  | [], _ + 1 => rfl
  | e :: l, 0 => congrArg (· :: l.map Entry.held) (hf e)
  | e :: l, k + 1 => congrArg (e.held :: ·) (held_modify hf l k)

theorem modify (s : State) (i : Nat) {f : Entry → Entry} (hf : ∀ e, (f e).held = e.held := by exact fun _ => rfl) : s.Reslots (s.modify i f) := by
  cases i with
  | zero => exact refl s
  | succ k => exact { held := held_modify hf _ k }

theorem setSlot (s : State) (i : Nat) (slot : Slot) : s.Reslots (s.setSlot i slot) := modify s i

/-- A change of the queues and the owed lists. -/
theorem queues (s : State) (ts : Ts) (u r : List Nat) : s.Reslots { s with ts := ts, od := { s.od with urgentOwed := u, routineOwed := r } } := {}

theorem presence (s : State) (p : Presence) : s.Reslots { s with sc := { s.sc with presence := p } } := {}

theorem judgeBacklog (s : State) : s.Reslots s.judgeBacklog := by
  rw [s.judgeBacklog_eq]
  split
  · exact refl s
  · exact trans (queues s _ s.od.urgentOwed s.od.routineOwed) (post _ _ _ _ _)

theorem joinRoutine (s : State) (r : Ref) : s.Reslots (s.joinRoutine r) := trans (queues s _ s.od.urgentOwed s.od.routineOwed) (judgeBacklog _)

theorem append (s : State) (i : Nat) (o : Outbound) : s.Reslots (s.append i o) := by
  unfold State.append
  split
  · split
    · exact (setSlot s i _).trans (queues _ _ (s.setSlot i (.queued o)).od.urgentOwed (s.setSlot i (.queued o)).od.routineOwed)
    · exact (setSlot s i _).trans (queues _ (s.setSlot i (.owed o)).ts _ (s.setSlot i (.owed o)).od.routineOwed)
  · split
    · exact (setSlot s i _).trans (joinRoutine _ _)
    · exact (setSlot s i _).trans (queues _ (s.setSlot i (.owed o)).ts (s.setSlot i (.owed o)).od.urgentOwed _)

theorem promoted (s : State) (i : Nat) : s.Reslots (s.modify i Entry.promoted) :=
  modify s i fun e => by unfold Entry.promoted; split <;> rfl

theorem offerUrgent (s : State) : s.Reslots s.offerUrgent := by
  unfold State.offerUrgent
  split
  · exact refl s
  · split
    · exact trans (queues s _ _ s.od.routineOwed) (promoted _ _)
    · exact refl s

theorem offerRoutine (s : State) : s.Reslots s.offerRoutine := by
  unfold State.offerRoutine
  split
  · split
    · exact trans (presence s _) (joinRoutine _ _)
    all_goals
      split
      · exact refl s
      · exact (trans (queues s s.ts s.od.urgentOwed _) (promoted _ _)).trans (joinRoutine _ _)
  · exact refl s

theorem freedRoutine (s : State) : s.Reslots s.freedRoutine := (judgeBacklog s).trans (offerRoutine _)

theorem withdraw (s : State) (i : Nat) : s.Reslots (s.withdraw i) := by
  refine withEntry fun e _ => ?_
  have hnone := setSlot s i .none
  cases e.slot with
  | none | inFlight _ _ => exact refl s
  | waiting _ => exact hnone
  | owed _ => exact hnone.trans (queues _ (s.setSlot i .none).ts _ _)
  | queued o =>
    dsimp only
    split
    · exact (hnone.trans (queues _ _ (s.setSlot i .none).od.urgentOwed (s.setSlot i .none).od.routineOwed)).trans (offerUrgent _)
    · exact (hnone.trans (queues _ _ (s.setSlot i .none).od.urgentOwed (s.setSlot i .none).od.routineOwed)).trans (freedRoutine _)

theorem requestPresence (s : State) (st : PresenceStatus) : s.Reslots (s.requestPresence st) := by
  by_cases h : s.sc.presence = .none
  · rw [State.requestPresence_none h]
    split
    · exact (presence s _).trans (joinRoutine _ _)
    · exact presence s _
  · rw [State.requestPresence_pending h]
    exact presence s _

theorem dropPresence (s : State) : s.Reslots s.dropPresence := by
  unfold State.dropPresence
  dsimp only
  split
  · exact trans {} (freedRoutine _)
  all_goals exact {}

theorem startAttempt (s : State) (h : Held) : s.Reslots (s.startAttempt h) := {}

theorem takeUrgent (s : State) (i : Nat) (rest : List Nat) : s.Reslots (s.takeUrgent i rest) := by
  refine withEntry fun e _ => ?_
  have hrest : s.Reslots { s with ts := { s.ts with urgent := rest } } := {}
  cases e.slot with
  | queued o => exact ((hrest.trans (setSlot _ _ _)).trans (startAttempt _ _)).trans (offerUrgent _)
  | none | waiting _ | owed _ | inFlight _ _ => exact refl s

theorem takeRoutine (s : State) (r : Ref) (rest : List Ref) : s.Reslots (s.takeRoutine r rest) := by
  have hrest : s.Reslots { s with ts := { s.ts with routine := rest } } := {}
  unfold State.takeRoutine
  cases r with
  | entry i =>
    refine withEntry fun e _ => ?_
    cases e.slot with
    | queued o => exact ((hrest.trans (setSlot _ _ _)).trans (startAttempt _ _)).trans (freedRoutine _)
    | none | waiting _ | owed _ | inFlight _ _ => exact refl s
  | presence =>
    cases s.sc.presence with
    | queued st => exact ((hrest.trans (presence _ _)).trans (startAttempt _ _)).trans (freedRoutine _)
    | none | owed _ | inFlight _ _ => exact refl s

theorem postAll (i : Nat) : ∀ (rs : List (EventKind × Byte)) (s : State), s.Reslots (s.postAll i rs)
  | [], s => refl s
  | _ :: rs, s => trans (withEntry fun _ _ => post s _ _ _ _) (postAll i rs _)

theorem eachEntry {f : State → Nat → State} (h : ∀ (s : State) i, s.Reslots (f s i)) (s : State) : s.Reslots (s.eachEntry f) := by
  unfold State.eachEntry
  generalize List.range' 1 s.od.entries.length = l
  induction l generalizing s with
  | nil => exact refl s
  | cons i l ih => exact (h s i).trans (ih (f s i))

theorem lineRestartEntry (s : State) (i : Nat) : s.Reslots (s.lineRestartEntry i) :=
  withEntry fun _ _ => (modify s i).trans (postAll _ _ _)

theorem flush (s : State) : s.Reslots s.flush := { held := by simp [State.flush, Function.comp_def, Entry.held] }

end State.Reslots

/-- A move is plain, moves telegrams and records, or installs an image. -/
theorem State.Move.cases_reslots {ok : Prop} {s t : State} (h : State.Move ok s t) :
    s.Plain ok t ∨ s.Reslots t ∨ ∃ im st, s.Early ∧ s.il.staging.validate = .ok im ∧ (st = .listening ∨ st = .detached)
      ∧ t = { s.install im with sc := { (s.install im).sc with state := st } } := by
  cases h with
  | plain h => exact .inl h
  | install he hv hst => exact .inr (.inr ⟨_, _, he, hv, hst, rfl⟩)
  | post k id tag v => exact .inr (.inl (.post s k id tag v))
  | bump c => exact .inr (.inl (.bump s c))
  | append o _ => exact .inr (.inl (.append s _ o))
  | withdraw i => exact .inr (.inl (.withdraw s i))
  | requestPresence st => exact .inr (.inl (.requestPresence s st))
  | dropPresence => exact .inr (.inl (.dropPresence s))
  | takeUrgent _ => exact .inr (.inl (.takeUrgent s _ _))
  | takeRoutine _ => exact .inr (.inl (.takeRoutine s _ _))
  | flush => exact .inr (.inl (.flush s))
  | lineRestart => exact .inr (.inl ((State.Reslots.eachEntry State.Reslots.lineRestartEntry s).trans (.flush _)))

/-! ## The event queue and the waiting commands -/

/-- t has s's waiting commands, and its event queue is that of s with records added within the bounds. -/
structure State.Logs (s t : State) : Prop where
  pending : t.pending = s.pending
  records : s.eu.queue <+: t.eu.queue
  events : s.EventsInv → t.EventsInv

theorem State.Move.logs {ok : Prop} {s t : State} (h : State.Move ok s t) : s.Logs t := by
  obtain hplain | hmove | ⟨im, st, _, _, _, rfl⟩ := h.cases_reslots
  · refine ⟨hplain.pending, hplain.queue ▸ List.prefix_rfl, fun hev => ?_⟩
    unfold State.EventsInv
    rw [hplain.queue, hplain.lost]
    exact hev
  · exact ⟨hmove.pending, hmove.records, hmove.events⟩
  · exact ⟨rfl, List.prefix_rfl, id⟩

theorem State.Moves.logs {ok : Prop} {s t : State} (h : s.Moves ok t) : s.Logs t :=
  h.keeps (P := s.Logs)
    (fun _ _ hm hl => ⟨hm.logs.pending.trans hl.pending, hl.records.trans hm.logs.records, hm.logs.events ∘ hl.events⟩)
    ⟨rfl, List.prefix_rfl, id⟩

/-- A pop of the event queue shows its head, and what stands behind it stays in its place (R196, R197). -/
theorem State.popEvent_records {s : State} {r : EventRecord} {rest : List EventRecord} (h : s.eu.queue = r :: rest) :
    s.popEvent.eu.window = r ∧ rest <+: s.popEvent.eu.queue := by
  unfold State.popEvent
  rw [h]
  dsimp only
  split
  · exact ⟨rfl, List.prefix_rfl⟩
  · exact ⟨rfl, List.prefix_append _ _⟩

theorem State.pending_popEvent (s : State) : s.popEvent.pending = s.pending := by
  unfold State.popEvent
  split
  · rfl
  · split <;> rfl

/-- Every command answers a next state (assumption 2). -/
theorem exec_completes (c : Instr) (s : State) : ∃ t, exec c s = .next t := by
  cases c <;> exact ⟨_, rfl⟩

theorem exec_pending {c : Instr} {s t : State} (h : exec c s = .next t) : t.pending = s.pending := by
  cases exec_stepped h with
  | moves hm => exact hm.logs.pending
  | popped _ ht => rw [ht]; exact s.pending_popEvent
  | restarted low cause _ ht => rw [ht]; rfl

/-- What every command keeps, and the waiting commands do not matter to, a step keeps. -/
theorem step_keeps {P : State → Prop} (hpending : ∀ (s : State) p, P s → P { s with pending := p })
    (hexec : ∀ (c : Instr) (s t : State), P s → exec c s = .next t → P t) {s t : State} (hs : P s) (h : step s = .next t) : P t := by
  unfold step at h
  split at h
  · cases h
    exact hs
  · exact hexec _ _ _ (hpending s _ hs) h

/-- What every move, every pop of the event queue and every full restart keeps, every step keeps. `s₀` is the state in which the command starts. -/
theorem step_keeps_of_moves {P : State → Prop} (hpending : ∀ (s : State) p, P s → P { s with pending := p })
    (hmove : ∀ s₀ s t : State, P s₀ → State.Move s₀.TablesInv s t → P s → P t)
    (hpop : ∀ s : State, P s → P s.popEvent) (hrestart : ∀ (s : State) cause, P (s.fullRestart cause)) {s t : State} (hs : P s)
    (h : step s = .next t) : P t := by
  refine step_keeps hpending (fun c s t hs h => ?_) hs h
  cases exec_stepped h with
  | moves hm => exact hm.keeps (fun u v => hmove s u v hs) hs
  | popped _ ht => rw [ht]; exact hpop s hs
  | restarted low cause _ ht => rw [ht]; exact hrestart _ cause

end Sys2Proof.Machine

/-! ## The statements of the machine's queues of records and commands -/

namespace Sys2Proof
open Sys2Proof.Machine

/-- Settles O2: a command changes the state by moves, a pop or a full restart, and none of these touches the waiting commands. -/
theorem everyCommandCompletesAndLeavesTheQueue : Obligations.EveryCommandCompletesAndLeavesTheQueue := by
  intro c s
  obtain ⟨t, h⟩ := exec_completes c s
  exact ⟨t, h, exec_pending h⟩

/-- Settles O53: moves add records at the tail, and the pop takes one off the head. -/
theorem recordsLeaveTheEventQueueOnlyAtItsHead : Obligations.RecordsLeaveTheEventQueueOnlyAtItsHead := by
  intro c s t h hpower hrelease hfull
  cases exec_stepped h with
  | moves hm => exact .inl hm.logs.records
  | popped hc ht =>
    rw [ht]
    cases hq : s.eu.queue with
    | nil => exact .inl (List.nil_prefix)
    | cons r rest =>
      obtain ⟨hshown, hrest⟩ := State.popEvent_records hq
      exact .inr ⟨hc, r, rest, rfl, hshown, hrest⟩
  | restarted low cause hc _ =>
    obtain hc | hc | hc := hc
    · exact absurd hc hpower
    · exact absurd hc hrelease
    · exact absurd hc hfull

/-- Settles O54: each move keeps the bounds, and so do a pop and a full restart. -/
theorem theEventQueueHoldsAtMost32AndLosesOnlyWhenFull : Obligations.TheEventQueueHoldsAtMost32AndLosesOnlyWhenFull := by
  intro s t hs h
  refine step_keeps (fun _ _ => id) (fun c s t hs h => ?_) hs h
  cases exec_stepped h with
  | moves hm => exact hm.logs.events hs
  | popped _ ht => rw [ht]; exact s.eventsInv_popEvent hs
  | restarted low cause _ ht => rw [ht]; exact ⟨Nat.le_add_left 1 31, fun hlost => absurd rfl hlost⟩

end Sys2Proof
end

section
/-! PROOFS. What the moves keep of the room in the queues (R131, R132, R138), and from it the statement O55. -/

namespace Sys2Proof.Machine

-- One proof is elaborated at a time: all that the text still has in flight here would not fit the check's memory limit.
set_option Elab.async false

/-! ## The capacities, apart from BACKLOG -/

/-- The queues within their capacities, each owed list empty unless its queue is full; of BACKLOG nothing. -/
def State.Roomless (s : State) : Prop :=
  s.ts.urgent.length ≤ 8 ∧ s.ts.routine.length ≤ 16
    ∧ (s.od.urgentOwed ≠ [] → s.ts.urgent.length = 8)
    ∧ (s.od.routineOwed ≠ [] → s.ts.routine.length = 16)
    ∧ (s.sc.presence.isOwed = true → s.ts.routine.length = 16)

/-- BACKLOG by its thresholds (R138). -/
def State.Judged (s : State) : Prop :=
  (12 ≤ s.ts.routine.length → s.ts.backlog = true) ∧ (s.ts.routine.length ≤ 4 → s.ts.backlog = false)

theorem State.queuesInv_iff (s : State) : s.QueuesInv ↔ s.Roomless ∧ s.Judged := by
  simp only [State.QueuesInv, State.Roomless, State.Judged, and_assoc]

/-- The queues, the owed lists and the presence record: all that their invariant hangs on. -/
def State.telegrams (s : State) : Ts × List Nat × List Nat × Presence := (s.ts, s.od.urgentOwed, s.od.routineOwed, s.sc.presence)

theorem State.queuesInv_congr {s t : State} (h : t.telegrams = s.telegrams) (hs : s.QueuesInv) : t.QueuesInv := by
  simp only [State.telegrams, Prod.mk.injEq] at h
  obtain ⟨hts, hu, hr, hp⟩ := h
  unfold State.QueuesInv
  rw [hts, hu, hr, hp]
  exact hs

theorem State.telegrams_post (s : State) (k : EventKind) (id : BitVec 12) (tag : Byte) (v : Option Byte) :
    (s.post k id tag v).telegrams = s.telegrams := by
  obtain ⟨q, l, h⟩ := s.post_eq k id tag v
  rw [h]
  rfl

theorem State.telegrams_bump (s : State) (c : Counter) : (s.bump c).telegrams = s.telegrams := by
  obtain ⟨q, l, n, a, h⟩ := s.bump_eq c
  rw [h]
  rfl

theorem State.telegrams_modify (s : State) (i : Nat) (f : Entry → Entry) : (s.modify i f).telegrams = s.telegrams := by
  cases i <;> rfl

/-- What judging leaves: BACKLOG alone changes, and then stands by its thresholds. -/
theorem State.judgeBacklog_telegrams (s : State) :
    ∃ b, s.judgeBacklog.telegrams = ({ s.ts with backlog := b }, s.od.urgentOwed, s.od.routineOwed, s.sc.presence)
      ∧ (12 ≤ s.ts.routine.length → b = true) ∧ (s.ts.routine.length ≤ 4 → b = false) := by
  have hcross := backlogCrossing_eq s.ts.backlog s.ts.routine.length
  rw [s.judgeBacklog_eq]
  split at hcross
  · rw [hcross]
    exact ⟨true, State.telegrams_post _ _ _ _ _, fun _ => rfl, fun _ => by omega⟩
  · split at hcross
    · rw [hcross]
      exact ⟨false, State.telegrams_post _ _ _ _ _, fun _ => by omega, fun _ => rfl⟩
    · rw [hcross]
      refine ⟨s.ts.backlog, rfl, fun h12 => ?_, fun h4 => ?_⟩
      · cases hb : s.ts.backlog <;> simp_all
      · cases hb : s.ts.backlog <;> simp_all

/-- Judging BACKLOG completes the invariant. -/
theorem State.Roomless.judged {s : State} (h : s.Roomless) : s.judgeBacklog.QueuesInv := by
  obtain ⟨b, ht, h12, h4⟩ := s.judgeBacklog_telegrams
  obtain ⟨hu, hr, huo, hro, hp⟩ := h
  exact State.queuesInv_congr (s := { s with ts := { s.ts with backlog := b } }) ht ⟨hu, hr, huo, hro, hp, h12, h4⟩

/-! ## Places taken and places freed -/

/-- A reference that joins the ROUTINE queue while it has a place, the owed lists empty unless this place was the last. -/
theorem State.queuesInv_joinRoutine {s : State} (r : Ref) (hu : s.ts.urgent.length ≤ 8) (huo : s.od.urgentOwed ≠ [] → s.ts.urgent.length = 8)
    (hr : s.ts.routine.length < 16) (hro : s.od.routineOwed ≠ [] → s.ts.routine.length = 15)
    (hp : s.sc.presence.isOwed = true → s.ts.routine.length = 15) : (s.joinRoutine r).QueuesInv := by
  refine State.Roomless.judged (s := { s with ts := { s.ts with routine := s.ts.routine ++ [r] } }) ⟨hu, ?_, huo, ?_, ?_⟩
  · simp only [List.length_append, List.length_singleton]; omega
  · intro h; simp only [List.length_append, List.length_singleton, hro h]
  · intro h; simp only [List.length_append, List.length_singleton, hp h]

theorem State.queuesInv_append {s : State} (h : s.QueuesInv) (i : Nat) (o : Outbound) : (s.append i o).QueuesInv := by
  have hslot : ∀ slot, (s.setSlot i slot).telegrams = s.telegrams := fun slot => s.telegrams_modify i _
  simp only [State.telegrams, Prod.mk.injEq] at hslot
  obtain ⟨hts, hurgent, hroutine, hpresence⟩ := hslot (.owed o)
  obtain ⟨hts', hurgent', hroutine', hpresence'⟩ := hslot (.queued o)
  obtain ⟨hu, hr, huo, hro, hp, h12, h4⟩ := h
  unfold State.append Config.urgentCapacity Config.routineCapacity
  split
  · split
    next hroom =>
      refine State.queuesInv_congr (s := { s with ts := { s.ts with urgent := s.ts.urgent ++ [i] } })
        (by simp [State.telegrams, hurgent', hroutine', hpresence']) ⟨?_, hr, ?_, hro, hp, h12, h4⟩
      · simp only [List.length_append, List.length_singleton]; omega
      · exact fun howed => absurd (huo howed) (by omega)
    next hfull =>
      exact State.queuesInv_congr (s := { s with od := { s.od with urgentOwed := s.od.urgentOwed ++ [i] } })
        (by simp [State.telegrams, hts, hurgent, hroutine, hpresence])
        ⟨hu, hr, fun _ => by show s.ts.urgent.length = 8; omega, hro, hp, h12, h4⟩
  · split
    next hroom =>
      refine State.queuesInv_joinRoutine _ ?_ ?_ ?_ ?_ ?_
      · rw [hts']; exact hu
      · rw [hts', hurgent']; exact huo
      · rw [hts']; exact hroom
      · rw [hts', hroutine']; exact fun howed => absurd (hro howed) (by omega)
      · rw [hts', hpresence']; exact fun howed => absurd (hp howed) (by omega)
    next hfull =>
      exact State.queuesInv_congr (s := { s with od := { s.od with routineOwed := s.od.routineOwed ++ [i] } })
        (by simp [State.telegrams, hts, hurgent, hroutine, hpresence])
        ⟨hu, hr, huo, fun _ => by show s.ts.routine.length = 16; omega, hp, h12, h4⟩

/-- A freed URGENT place is taken by the head of the owed list (R135). -/
theorem State.queuesInv_offerUrgent {s : State} (hu : s.ts.urgent.length ≤ 8) (huo : s.od.urgentOwed ≠ [] → 7 ≤ s.ts.urgent.length)
    (hr : s.ts.routine.length ≤ 16) (hro : s.od.routineOwed ≠ [] → s.ts.routine.length = 16)
    (hp : s.sc.presence.isOwed = true → s.ts.routine.length = 16) (hj : s.Judged) : s.offerUrgent.QueuesInv := by
  obtain ⟨h12, h4⟩ := hj
  unfold State.offerUrgent Config.urgentCapacity
  split
  next hnil => exact ⟨hu, hr, fun howed => absurd hnil howed, hro, hp, h12, h4⟩
  next i rest hcons =>
    have hseven := huo (by rw [hcons]; exact List.cons_ne_nil i rest)
    split
    next hroom =>
      refine State.queuesInv_congr (State.telegrams_modify _ _ _) ⟨?_, hr, fun _ => ?_, hro, hp, h12, h4⟩
      all_goals simp only [List.length_append, List.length_singleton]; omega
    next hfull => exact ⟨hu, hr, fun _ => by omega, hro, hp, h12, h4⟩

/-- A freed ROUTINE place is taken by the owed PRESENCE, or by the head of the owed list (R135). -/
theorem State.queuesInv_offerRoutine {s : State} (hu : s.ts.urgent.length ≤ 8) (huo : s.od.urgentOwed ≠ [] → s.ts.urgent.length = 8)
    (hr : s.ts.routine.length ≤ 16) (hro : s.od.routineOwed ≠ [] → 15 ≤ s.ts.routine.length)
    (hp : s.sc.presence.isOwed = true → 15 ≤ s.ts.routine.length) (hj : s.Judged) : s.offerRoutine.QueuesInv := by
  obtain ⟨h12, h4⟩ := hj
  unfold State.offerRoutine Config.routineCapacity
  split
  next hroom =>
    split
    next st hst =>
      have hfifteen := hp (by rw [hst]; rfl)
      refine State.queuesInv_joinRoutine _ hu huo hroom (fun _ => ?_) (fun h => by cases h)
      show s.ts.routine.length = 15
      omega
    all_goals
      next hst =>
        split
        next hnil => exact ⟨hu, hr, huo, fun howed => absurd hnil howed, (by rw [hst]; intro h; cases h), h12, h4⟩
        next i rest hcons =>
          have hfifteen := hro (by rw [hcons]; exact List.cons_ne_nil i rest)
          have hkept := State.telegrams_modify { s with od := { s.od with routineOwed := rest } } i Entry.promoted
          simp only [State.telegrams, Prod.mk.injEq] at hkept
          obtain ⟨hts, hurgent, hroutine, hpresence⟩ := hkept
          refine State.queuesInv_joinRoutine _ ?_ ?_ ?_ (fun _ => ?_) ?_
          · rw [hts]; exact hu
          · rw [hts, hurgent]; exact huo
          · rw [hts]; exact hroom
          · rw [hts]; show s.ts.routine.length = 15; omega
          · rw [hpresence, hst]; intro h; cases h
  next hfull => exact ⟨hu, hr, huo, fun _ => by omega, fun _ => by omega, h12, h4⟩

/-- A ROUTINE queue that has lost at most one reference. -/
theorem State.queuesInv_freedRoutine {s : State} (hu : s.ts.urgent.length ≤ 8) (huo : s.od.urgentOwed ≠ [] → s.ts.urgent.length = 8)
    (hr : s.ts.routine.length ≤ 16) (hro : s.od.routineOwed ≠ [] → 15 ≤ s.ts.routine.length)
    (hp : s.sc.presence.isOwed = true → 15 ≤ s.ts.routine.length) : s.freedRoutine.QueuesInv := by
  obtain ⟨b, hjudged, h12, h4⟩ := s.judgeBacklog_telegrams
  simp only [State.telegrams, Prod.mk.injEq] at hjudged
  obtain ⟨hts, hurgent, hroutine, hpresence⟩ := hjudged
  refine State.queuesInv_offerRoutine (s := s.judgeBacklog) ?_ ?_ ?_ ?_ ?_ ?_
  · rw [hts]; exact hu
  · rw [hts, hurgent]; exact huo
  · rw [hts]; exact hr
  · rw [hts, hroutine]; exact hro
  · rw [hts, hpresence]; exact hp
  · unfold State.Judged; rw [hts]; exact ⟨h12, h4⟩

/-! ## The moves -/

/-- Taking one element off a list shortens it by one at most. -/
theorem length_erase_bounds {α : Type} [BEq α] [LawfulBEq α] (a : α) (l : List α) : (l.erase a).length ≤ l.length ∧ l.length ≤ (l.erase a).length + 1 := by
  have h := List.length_erase (a := a) (l := l)
  split at h <;> omega

/-- What holds of the state, and of what acting on the entry makes of it, holds after acting on the entry. -/
theorem State.withEntry_keeps {P : State → Prop} {s : State} {i : Nat} {k : Entry → State} (hs : P s)
    (h : ∀ j e, i = j + 1 → s.entry? (j + 1) = some e → P (k e)) : P (s.withEntry i k) := by
  cases he : s.entry? i with
  | none => rw [State.withEntry_none he]; exact hs
  | some e =>
    obtain ⟨j, rfl, _, _⟩ := s.entry?_lt he
    rw [State.withEntry_some he]
    exact h j e rfl he

theorem State.queuesInv_withdraw {s : State} (h : s.QueuesInv) (i : Nat) : (s.withdraw i).QueuesInv := by
  refine State.withEntry_keeps (P := fun s => s.QueuesInv) h ?_
  rintro k e rfl -
  obtain ⟨hu, hr, huo, hro, hp, h12, h4⟩ := h
  have herase : ∀ l : List Nat, l.erase (k + 1) ≠ [] → l ≠ [] := fun l hl hnil => hl (by rw [hnil]; rfl)
  cases e.slot with
  | none | inFlight _ _ | waiting _ => exact ⟨hu, hr, huo, hro, hp, h12, h4⟩
  | owed _ => exact ⟨hu, hr, huo ∘ herase _, hro ∘ herase _, hp, h12, h4⟩
  | queued o =>
    dsimp only
    split
    · have hlen := length_erase_bounds (k + 1) s.ts.urgent
      exact State.queuesInv_offerUrgent (Nat.le_trans hlen.1 hu) (fun howed => by have := huo howed; show 7 ≤ (s.ts.urgent.erase (k + 1)).length; omega)
        hr hro hp ⟨h12, h4⟩
    · have hlen := length_erase_bounds (Ref.entry (k + 1)) s.ts.routine
      refine State.queuesInv_freedRoutine hu huo (Nat.le_trans hlen.1 hr) (fun howed => ?_) (fun howed => ?_)
      · have := hro howed; show 15 ≤ (s.ts.routine.erase (.entry (k + 1))).length; omega
      · have := hp howed; show 15 ≤ (s.ts.routine.erase (.entry (k + 1))).length; omega

theorem State.queuesInv_requestPresence {s : State} (h : s.QueuesInv) (st : PresenceStatus) : (s.requestPresence st).QueuesInv := by
  obtain ⟨hu, hr, huo, hro, hp, h12, h4⟩ := h
  by_cases hnone : s.sc.presence = .none
  · rw [State.requestPresence_none hnone]
    unfold Config.routineCapacity
    split
    next hroom =>
      exact State.queuesInv_joinRoutine _ hu huo hroom (fun howed => absurd (hro howed) (by omega)) (fun h => by cases h)
    next hfull => exact ⟨hu, hr, huo, hro, fun _ => by show s.ts.routine.length = 16; omega, h12, h4⟩
  · rw [State.requestPresence_pending hnone]
    refine ⟨hu, hr, huo, hro, ?_, h12, h4⟩
    cases hst : s.sc.presence with
    | owed st' => exact fun _ => hp (by rw [hst]; rfl)
    | none | queued _ | inFlight _ _ => intro h; cases h

theorem State.queuesInv_dropPresence {s : State} (h : s.QueuesInv) : s.dropPresence.QueuesInv := by
  obtain ⟨hu, hr, huo, hro, hp, h12, h4⟩ := h
  unfold State.dropPresence
  dsimp only
  split
  · have hlen := length_erase_bounds Ref.presence s.ts.routine
    refine State.queuesInv_freedRoutine hu huo (Nat.le_trans hlen.1 hr) (fun howed => ?_) (fun h => by cases h)
    have := hro howed
    show 15 ≤ (s.ts.routine.erase .presence).length
    omega
  all_goals exact ⟨hu, hr, huo, hro, fun h => by (cases h), h12, h4⟩

theorem State.queuesInv_takeUrgent {s : State} {i : Nat} {rest : List Nat} (hq : s.ts.urgent = i :: rest) (h : s.QueuesInv) :
    (s.takeUrgent i rest).QueuesInv := by
  obtain ⟨hu, hr, huo, hro, hp, h12, h4⟩ := id h
  rw [hq, List.length_cons] at hu huo
  refine State.withEntry_keeps (P := fun s => s.QueuesInv) h ?_
  rintro k e rfl -
  cases e.slot with
  | queued o =>
    refine State.queuesInv_offerUrgent (Nat.le_of_succ_le hu) (fun howed => ?_) hr hro hp ⟨h12, h4⟩
    have := huo howed
    show 7 ≤ rest.length
    omega
  | none | waiting _ | owed _ | inFlight _ _ => exact h

theorem State.queuesInv_takeRoutine {s : State} {r : Ref} {rest : List Ref} (hq : s.ts.routine = r :: rest) (h : s.QueuesInv) :
    (s.takeRoutine r rest).QueuesInv := by
  obtain ⟨hu, hr, huo, hro, hp, h12, h4⟩ := id h
  rw [hq, List.length_cons] at hr hro hp
  have hro' : s.od.routineOwed ≠ [] → 15 ≤ rest.length := fun howed => by have := hro howed; omega
  have hp' : s.sc.presence.isOwed = true → 15 ≤ rest.length := fun howed => by have := hp howed; omega
  unfold State.takeRoutine
  cases r with
  | entry i =>
    refine State.withEntry_keeps (P := fun s => s.QueuesInv) h ?_
    rintro k e rfl -
    cases e.slot with
    | queued o => exact State.queuesInv_freedRoutine hu huo (Nat.le_of_succ_le hr) hro' hp'
    | none | waiting _ | owed _ | inFlight _ _ => exact h
  | presence =>
    cases s.sc.presence with
    | queued st => exact State.queuesInv_freedRoutine hu huo (Nat.le_of_succ_le hr) hro' (fun h => by cases h)
    | none | owed _ | inFlight _ _ => exact h

/-- After a flush the queues are empty. -/
theorem State.queuesInv_flush (s : State) : s.flush.QueuesInv :=
  ⟨Nat.zero_le 8, Nat.zero_le 16, fun h => absurd rfl h, fun h => absurd rfl h, fun h => by (cases h), fun h => absurd h (Nat.not_succ_le_zero 11), fun _ => rfl⟩

theorem State.Move.queuesInv {ok : Prop} {s t : State} (h : State.Move ok s t) (hs : s.QueuesInv) : t.QueuesInv := by
  cases h with
  | plain h =>
    obtain ⟨hu, hr, huo, hro, hp, h12, h4⟩ := hs
    unfold State.QueuesInv
    rw [h.ts, h.urgentOwed, h.routineOwed, h.presence.2]
    exact ⟨hu, hr, huo, hro, hp, h12, h4⟩
  | post k id tag v => exact State.queuesInv_congr (State.telegrams_post s k id tag v) hs
  | bump c => exact State.queuesInv_congr (State.telegrams_bump s c) hs
  | append o _ => exact State.queuesInv_append hs _ o
  | withdraw i => exact State.queuesInv_withdraw hs i
  | requestPresence st => exact State.queuesInv_requestPresence hs st
  | dropPresence => exact State.queuesInv_dropPresence hs
  | takeUrgent hq => exact State.queuesInv_takeUrgent hq hs
  | takeRoutine hq => exact State.queuesInv_takeRoutine hq hs
  | flush => exact State.queuesInv_flush s
  | lineRestart => exact State.queuesInv_flush _
  | install _ _ _ =>
    obtain ⟨hu, hr, _, _, hp, h12, h4⟩ := hs
    exact ⟨hu, hr, fun h => absurd rfl h, fun h => absurd rfl h, hp, h12, h4⟩

theorem State.telegrams_popEvent (s : State) : s.popEvent.telegrams = s.telegrams := by
  unfold State.popEvent
  split
  · rfl
  · split <;> rfl

end Sys2Proof.Machine

/-! ## The statement -/

namespace Sys2Proof
open Sys2Proof.Machine

/-- Settles O55: each move keeps it, a place freed being offered at once, and BACKLOG judged wherever the ROUTINE queue has changed. -/
theorem nothingIsOwedWhileItsQueueHasAPlace : Obligations.NothingIsOwedWhileItsQueueHasAPlace := fun _ _ hs h =>
  step_keeps_of_moves (P := fun s => s.QueuesInv) (fun _ _ => id) (fun _ _ _ _ => State.Move.queuesInv)
    (fun s => State.queuesInv_congr s.telegrams_popEvent) (fun _ _ => State.queuesInv_flush State.reset) hs h

end Sys2Proof
end

section
/-! PROOFS. What the moves keep of the references (R131, R132), and from it the statement O59. -/

namespace Sys2Proof.Machine

-- One proof is elaborated at a time: all that the text still has in flight here would not fit the check's memory limit.
set_option Elab.async false

/-! ## The references called for, and where they stand -/

theorem State.called_eq (s : State) (i : Nat) : s.called i = ((s.entry? i).map fun e => e.slot.calls).getD (0, 0, 0, 0) := by
  unfold State.called
  cases s.entry? i <;> rfl

theorem State.called_some {s : State} {i : Nat} {e : Entry} (h : s.entry? i = some e) : s.called i = e.slot.calls := by
  rw [s.called_eq, h]
  rfl

theorem State.called_put_same {s : State} {i : Nat} {e : Entry} (h : s.entry? i = some e) (e' : Entry) : (s.put i e').called i = e'.slot.calls :=
  State.called_some (State.entry?_put_same h e')

theorem State.called_put_other {s : State} {i j : Nat} {e : Entry} (h : s.entry? i = some e) (hj : j ≠ i) (e' : Entry) :
    (s.put i e').called j = s.called j := by
  obtain ⟨k, rfl, _, _⟩ := s.entry?_lt h
  rw [State.called_eq, s.entry?_put_other (Nat.le_add_left 1 k) hj, ← State.called_eq]

/-- The references follow the queues, the owed lists, the presence record and the slots alone. -/
theorem State.referencesInv_congr {s t : State} (ht : t.telegrams = s.telegrams) (hc : ∀ i, t.called i = s.called i) (hs : s.ReferencesInv) :
    t.ReferencesInv := by
  simp only [State.telegrams, Prod.mk.injEq] at ht
  obtain ⟨hts, hu, hr, hp⟩ := ht
  obtain ⟨hrefs, hpres⟩ := hs
  refine ⟨fun i => ?_, ?_⟩
  · rw [hc i, ← hrefs i]
    unfold State.references
    rw [hts, hu, hr]
  · rw [hts, hp, hpres]

theorem State.called_of_entries {s t : State} (h : t.od.entries = s.od.entries) (i : Nat) : t.called i = s.called i := by
  rw [s.called_eq, t.called_eq, State.entry?_of_entries h]

/-- BACKLOG is no reference. -/
theorem State.referencesInv_judgeBacklog {s : State} (h : s.ReferencesInv) : s.judgeBacklog.ReferencesInv := by
  obtain ⟨b, ht, -, -⟩ := s.judgeBacklog_telegrams
  refine State.referencesInv_congr (s := { s with ts := { s.ts with backlog := b } }) ht (fun i => ?_) h
  rw [State.called_eq, s.entry?_judgeBacklog, ← s.called_eq]
  exact (State.called_of_entries rfl i).symm

/-- A slot changed, and with it the references of its entry from what the old slot calls for to what the new one does. -/
theorem State.referencesInv_put {s t : State} {i : Nat} {e e' : Entry} (h : s.ReferencesInv) (he : s.entry? i = some e)
    (hentries : t.od.entries = (s.put i e').od.entries) (hsame : s.references i = e.slot.calls → t.references i = e'.slot.calls)
    (hother : ∀ j, j ≠ i → t.references j = s.references j) (hp : t.ts.routine.count .presence = s.ts.routine.count .presence)
    (hpres : t.sc.presence.calls = s.sc.presence.calls) : t.ReferencesInv := by
  obtain ⟨hrefs, hpresence⟩ := h
  refine ⟨fun j => ?_, by rw [hp, hpres, hpresence]⟩
  rw [State.called_of_entries hentries j]
  by_cases hj : j = i
  · subst hj
    rw [State.called_put_same he]
    exact hsame ((hrefs j).trans (State.called_some he))
  · rw [State.called_put_other he hj, hother j hj, hrefs j]

/-! ## Places taken -/

theorem State.referencesInv_append {s : State} (h : s.ReferencesInv) {i : Nat} (hi : s.Unreferenced i) (o : Outbound) :
    (s.append i o).ReferencesInv := by
  obtain ⟨e, he, hnone⟩ := hi
  cases hc : o.cls with
  | urgent =>
    by_cases hq : s.ts.urgent.length < Config.urgentCapacity
    · rw [State.append_urgent he hc hq]
      refine State.referencesInv_put h he rfl (fun hrefs => ?_) (fun j hj => ?_) rfl rfl
      · rw [hnone] at hrefs
        simp only [State.references, Prod.mk.injEq] at hrefs
        simp [State.references, Slot.calls, hc, State.put, hrefs]
      · simp [State.references, State.put, Ne.symm hj]
    · rw [State.append_urgentOwed he hc (Nat.not_lt.mp hq)]
      refine State.referencesInv_put h he rfl (fun hrefs => ?_) (fun j hj => ?_) rfl rfl
      · rw [hnone] at hrefs
        simp only [State.references, Prod.mk.injEq] at hrefs
        simp [State.references, Slot.calls, hc, State.put, hrefs]
      · simp [State.references, State.put, Ne.symm hj]
  | routine =>
    by_cases hq : s.ts.routine.length < Config.routineCapacity
    · rw [State.append_routine he hc hq]
      refine State.referencesInv_judgeBacklog (State.referencesInv_put h he rfl (fun hrefs => ?_) (fun j hj => ?_) ?_ rfl)
      · rw [hnone] at hrefs
        simp only [State.references, Prod.mk.injEq] at hrefs
        simp [State.references, Slot.calls, hc, State.put, hrefs]
      · simp [State.references, State.put, Ne.symm hj]
      · simp [State.put]
    · rw [State.append_routineOwed he hc (Nat.not_lt.mp hq)]
      refine State.referencesInv_put h he rfl (fun hrefs => ?_) (fun j hj => ?_) rfl rfl
      · rw [hnone] at hrefs
        simp only [State.references, Prod.mk.injEq] at hrefs
        simp [State.references, Slot.calls, hc, State.put, hrefs]
      · simp [State.references, State.put, Ne.symm hj]

/-! ## Whose reference stands in a list -/

/-- A slot that calls for a reference is QUEUED or OWED, in the class of its telegram. -/
theorem Slot.calls_eq_iff (slot : Slot) :
    (slot.calls.1 ≠ 0 → ∃ o, slot = .queued o ∧ o.cls = .urgent) ∧ (slot.calls.2.1 ≠ 0 → ∃ o, slot = .queued o ∧ o.cls = .routine)
      ∧ (slot.calls.2.2.1 ≠ 0 → ∃ o, slot = .owed o ∧ o.cls = .urgent) ∧ (slot.calls.2.2.2 ≠ 0 → ∃ o, slot = .owed o ∧ o.cls = .routine) := by
  cases slot with
  | none | waiting _ | inFlight _ _ => simp [Slot.calls]
  | queued o | owed o => cases hc : o.cls <;> simp [Slot.calls, hc]

/-- Where a reference stands, its entry is there and its slot calls for what stands. -/
theorem State.referenced_entry {s : State} (h : s.ReferencesInv) {i : Nat} (hi : s.references i ≠ (0, 0, 0, 0)) :
    ∃ e, s.entry? i = some e ∧ s.references i = e.slot.calls := by
  obtain ⟨hrefs, -⟩ := h
  cases he : s.entry? i with
  | none => exact absurd ((hrefs i).trans (by rw [s.called_eq, he]; rfl)) hi
  | some e => exact ⟨e, rfl, (hrefs i).trans (State.called_some he)⟩

section Heads

variable {s : State} (h : s.ReferencesInv) {i : Nat}

include h

theorem State.queued_of_mem_urgent (hi : i ∈ s.ts.urgent) : ∃ e o, s.entry? i = some e ∧ e.slot = .queued o ∧ o.cls = .urgent := by
  have hpos := List.count_pos_iff.mpr hi
  obtain ⟨e, he, hr⟩ := State.referenced_entry h (i := i) fun hz => Nat.ne_of_gt hpos (congrArg (·.1) hz)
  obtain ⟨o, ho⟩ := e.slot.calls_eq_iff.1 (by rw [← hr]; exact Nat.ne_of_gt hpos)
  exact ⟨e, o, he, ho⟩

theorem State.queued_of_mem_routine (hi : .entry i ∈ s.ts.routine) : ∃ e o, s.entry? i = some e ∧ e.slot = .queued o ∧ o.cls = .routine := by
  have hpos := List.count_pos_iff.mpr hi
  obtain ⟨e, he, hr⟩ := State.referenced_entry h (i := i) fun hz => Nat.ne_of_gt hpos (congrArg (·.2.1) hz)
  obtain ⟨o, ho⟩ := e.slot.calls_eq_iff.2.1 (by rw [← hr]; exact Nat.ne_of_gt hpos)
  exact ⟨e, o, he, ho⟩

theorem State.owed_of_mem_urgentOwed (hi : i ∈ s.od.urgentOwed) : ∃ e o, s.entry? i = some e ∧ e.slot = .owed o ∧ o.cls = .urgent := by
  have hpos := List.count_pos_iff.mpr hi
  obtain ⟨e, he, hr⟩ := State.referenced_entry h (i := i) fun hz => Nat.ne_of_gt hpos (congrArg (·.2.2.1) hz)
  obtain ⟨o, ho⟩ := e.slot.calls_eq_iff.2.2.1 (by rw [← hr]; exact Nat.ne_of_gt hpos)
  exact ⟨e, o, he, ho⟩

theorem State.owed_of_mem_routineOwed (hi : i ∈ s.od.routineOwed) : ∃ e o, s.entry? i = some e ∧ e.slot = .owed o ∧ o.cls = .routine := by
  have hpos := List.count_pos_iff.mpr hi
  obtain ⟨e, he, hr⟩ := State.referenced_entry h (i := i) fun hz => Nat.ne_of_gt hpos (congrArg (·.2.2.2) hz)
  obtain ⟨o, ho⟩ := e.slot.calls_eq_iff.2.2.2 (by rw [← hr]; exact Nat.ne_of_gt hpos)
  exact ⟨e, o, he, ho⟩

end Heads

/-! ## Places freed -/

/-- The owed head of the URGENT list takes a place: what was owed is queued (R135). -/
theorem State.referencesInv_offerUrgent {s : State} (h : s.ReferencesInv) : s.offerUrgent.ReferencesInv := by
  unfold State.offerUrgent
  split
  · exact h
  next i rest hcons =>
    split
    · obtain ⟨e, o, he, hs, hc⟩ := State.owed_of_mem_urgentOwed h (hcons ▸ List.mem_cons_self : i ∈ s.od.urgentOwed)
      dsimp only
      rw [State.modify_promoted ((State.entry?_of_entries ?_ i).trans he) hs]
      rotate_left
      · rfl
      refine State.referencesInv_put h he rfl (fun hrefs => ?_) (fun j hj => ?_) rfl rfl
      · simp only [State.references, hs, Slot.calls, hc, hcons, List.count_cons_self, Prod.mk.injEq, Nat.add_eq_right] at hrefs ⊢
        simpa [State.put] using hrefs
      · simp [State.references, State.put, hcons, Ne.symm hj]
    · exact h

/-- The owed PRESENCE, or the owed head of the ROUTINE list, takes a place (R135). -/
theorem State.referencesInv_offerRoutine {s : State} (h : s.ReferencesInv) : s.offerRoutine.ReferencesInv := by
  unfold State.offerRoutine
  split
  · split
    next st hst =>
      refine State.referencesInv_judgeBacklog ?_
      obtain ⟨hrefs, hpres⟩ := h
      refine ⟨fun i => ?_, ?_⟩
      · refine Eq.trans ?_ ((hrefs i).trans (State.called_of_entries rfl i).symm)
        simp [State.references]
      · rw [hst] at hpres
        show List.count .presence (s.ts.routine ++ [.presence]) = 1
        rw [List.count_append, hpres]
        rfl
    all_goals
      split
      next => exact h
      next i rest hcons =>
        obtain ⟨e, o, he, hs, hc⟩ := State.owed_of_mem_routineOwed h (hcons ▸ List.mem_cons_self : i ∈ s.od.routineOwed)
        dsimp only
        rw [State.modify_promoted ((State.entry?_of_entries ?_ i).trans he) hs]
        rotate_left
        · rfl
        refine State.referencesInv_judgeBacklog (State.referencesInv_put h he rfl (fun hrefs => ?_) (fun j hj => ?_) ?_ rfl)
        · simp only [State.references, hs, Slot.calls, hc, hcons, List.count_cons_self, Prod.mk.injEq, Nat.add_eq_right] at hrefs ⊢
          simpa [State.put] using hrefs
        · simp [State.references, State.put, hcons, Ne.symm hj]
        · simp [State.put]
  · exact h

theorem State.referencesInv_freedRoutine {s : State} (h : s.ReferencesInv) : s.freedRoutine.ReferencesInv :=
  State.referencesInv_offerRoutine (State.referencesInv_judgeBacklog h)

/-! ## The moves -/

theorem State.referencesInv_withdraw {s : State} (h : s.ReferencesInv) (i : Nat) : (s.withdraw i).ReferencesInv := by
  refine State.withEntry_keeps (P := fun s => s.ReferencesInv) h ?_
  rintro k e rfl he
  rw [State.setSlot_eq_put he]
  cases hs : e.slot with
  | none | inFlight _ _ => exact h
  | waiting _ => exact State.referencesInv_put h he rfl (fun hrefs => by rw [hs] at hrefs; exact hrefs) (fun _ _ => rfl) rfl rfl
  | owed o =>
    refine State.referencesInv_put h he rfl (fun hrefs => ?_) (fun j hj => ?_) rfl rfl
    · rw [hs] at hrefs
      cases hc : o.cls <;> simp only [State.references, Slot.calls, hc, Prod.mk.injEq] at hrefs <;>
        simp [State.references, Slot.calls, State.put, List.count_erase_self, hrefs]
    · simp [State.references, State.put, List.count_erase_of_ne hj]
  | queued o =>
    dsimp only
    split
    next hc =>
      refine State.referencesInv_offerUrgent (State.referencesInv_put h he rfl (fun hrefs => ?_) (fun j hj => ?_) rfl rfl)
      · rw [hs] at hrefs
        simp only [State.references, Slot.calls, hc, Prod.mk.injEq] at hrefs
        simp [State.references, Slot.calls, State.put, List.count_erase_self, hrefs]
      · simp [State.references, State.put, List.count_erase_of_ne hj]
    next hc =>
      have hj' : ∀ j, j ≠ k + 1 → Ref.entry j ≠ Ref.entry (k + 1) := fun j hj hjk => hj (Ref.entry.inj hjk)
      refine State.referencesInv_freedRoutine (State.referencesInv_put h he rfl (fun hrefs => ?_) (fun j hj => ?_) ?_ rfl)
      · rw [hs] at hrefs
        simp only [State.references, Slot.calls, hc, Prod.mk.injEq] at hrefs
        simp [State.references, Slot.calls, State.put, List.count_erase_self, hrefs]
      · simp [State.references, State.put, List.count_erase_of_ne (hj' j hj)]
      · simp [State.put, List.count_erase_of_ne]

theorem State.referencesInv_requestPresence {s : State} (h : s.ReferencesInv) (st : PresenceStatus) : (s.requestPresence st).ReferencesInv := by
  obtain ⟨hrefs, hpres⟩ := h
  by_cases hnone : s.sc.presence = .none
  · rw [State.requestPresence_none hnone]
    rw [hnone] at hpres
    split
    · refine State.referencesInv_judgeBacklog ⟨fun i => ?_, ?_⟩
      · refine Eq.trans ?_ ((hrefs i).trans (State.called_of_entries rfl i).symm)
        simp [State.references]
      · show List.count .presence (s.ts.routine ++ [.presence]) = 1
        rw [List.count_append, hpres]
        rfl
    · exact ⟨hrefs, hpres⟩
  · rw [State.requestPresence_pending hnone]
    refine ⟨hrefs, hpres.trans ?_⟩
    cases s.sc.presence <;> rfl

theorem State.referencesInv_dropPresence {s : State} (h : s.ReferencesInv) : s.dropPresence.ReferencesInv := by
  obtain ⟨hrefs, hpres⟩ := h
  unfold State.dropPresence
  dsimp only
  cases hst : s.sc.presence with
  | queued st =>
    rw [hst] at hpres
    refine State.referencesInv_freedRoutine ⟨fun i => ?_, ?_⟩
    · refine Eq.trans ?_ ((hrefs i).trans (State.called_of_entries rfl i).symm)
      simp [State.references, List.count_erase_of_ne]
    · show List.count .presence (s.ts.routine.erase .presence) = 0
      rw [List.count_erase_self, hpres]
      rfl
  | none | owed _ | inFlight _ _ =>
    rw [hst] at hpres
    exact ⟨hrefs, hpres⟩

theorem State.referencesInv_takeUrgent {s : State} {i : Nat} {rest : List Nat} (hq : s.ts.urgent = i :: rest) (h : s.ReferencesInv) :
    (s.takeUrgent i rest).ReferencesInv := by
  obtain ⟨e, o, he, hs, hc⟩ := State.queued_of_mem_urgent h (hq ▸ List.mem_cons_self : i ∈ s.ts.urgent)
  unfold State.takeUrgent
  rw [State.withEntry_some he, hs]
  dsimp only
  have he1 : State.entry? { s with ts := { s.ts with urgent := rest } } i = some e := (State.entry?_of_entries rfl i).trans he
  rw [State.setSlot_eq_put he1]
  refine State.referencesInv_offerUrgent (State.referencesInv_put h he rfl (fun hrefs => ?_) (fun j hj => ?_) rfl rfl)
  · simp only [State.references, hs, Slot.calls, hc, hq, List.count_cons_self, Prod.mk.injEq, Nat.add_eq_right] at hrefs
    simp [State.references, Slot.calls, State.put, State.startAttempt, hrefs]
  · simp [State.references, State.put, State.startAttempt, hq, Ne.symm hj]

theorem State.referencesInv_takeRoutine {s : State} {r : Ref} {rest : List Ref} (hq : s.ts.routine = r :: rest) (h : s.ReferencesInv) :
    (s.takeRoutine r rest).ReferencesInv := by
  unfold State.takeRoutine
  cases r with
  | entry i =>
    obtain ⟨e, o, he, hs, hc⟩ := State.queued_of_mem_routine h (hq ▸ List.mem_cons_self : .entry i ∈ s.ts.routine)
    dsimp only
    rw [State.withEntry_some he, hs]
    dsimp only
    have he1 : State.entry? { s with ts := { s.ts with routine := rest } } i = some e := (State.entry?_of_entries rfl i).trans he
    rw [State.setSlot_eq_put he1]
    refine State.referencesInv_freedRoutine (State.referencesInv_put h he rfl (fun hrefs => ?_) (fun j hj => ?_) ?_ rfl)
    · simp only [State.references, hs, Slot.calls, hc, hq, List.count_cons_self, Prod.mk.injEq, Nat.add_eq_right] at hrefs
      simp [State.references, Slot.calls, State.put, State.startAttempt, hrefs]
    · simp [State.references, State.put, State.startAttempt, hq, Ne.symm hj]
    · simp [State.put, State.startAttempt, hq]
  | presence =>
    obtain ⟨hrefs, hpres⟩ := id h
    cases hst : s.sc.presence with
    | queued st =>
      rw [hst, hq] at hpres
      refine State.referencesInv_freedRoutine ⟨fun i => ?_, ?_⟩
      · refine Eq.trans ?_ ((hrefs i).trans (State.called_of_entries rfl i).symm)
        simp [State.references, State.startAttempt, hq]
      · exact Nat.succ.inj ((List.count_cons_self (a := Ref.presence) (l := rest)).symm.trans hpres)
    | none | owed _ | inFlight _ _ => exact h

/-- After a flush nothing is referenced and nothing calls. -/
theorem State.referencesInv_flush (s : State) : s.flush.ReferencesInv := by
  refine ⟨fun i => ?_, rfl⟩
  rw [State.called_eq]
  cases i with
  | zero => rfl
  | succ k =>
    rw [State.entry?_succ]
    show (0, 0, 0, 0) = (((s.od.entries.map fun e => { e with slot := .none })[k]?).map fun e => e.slot.calls).getD (0, 0, 0, 0)
    rw [List.getElem?_map]
    cases s.od.entries[k]? <;> rfl

/-- The directory is empty before installation. -/
def State.EarlyEmpty (s : State) : Prop := s.Early → s.od.entries = []

theorem State.earlyEmpty_of_map_eq {α : Type} {f : Entry → α} {s t : State} (h : t.od.entries.map f = s.od.entries.map f) (he : t.Early → s.Early)
    (hs : s.EarlyEmpty) : t.EarlyEmpty := fun hearly => by
  rw [hs (he hearly)] at h
  exact List.map_eq_nil_iff.mp h

theorem State.Move.earlyEmpty {ok : Prop} {s t : State} (h : State.Move ok s t) (hs : s.EarlyEmpty) : t.EarlyEmpty := by
  obtain hplain | hmove | ⟨im, st, _, _, hst, rfl⟩ := h.cases_reslots
  · exact State.earlyEmpty_of_map_eq hplain.cores hplain.early hs
  · refine State.earlyEmpty_of_map_eq hmove.held (fun hearly => ?_) hs
    unfold State.Early at hearly ⊢
    rwa [hmove.il, hmove.station] at hearly
  · rintro (hread | hload | hunconf)
    · cases hread
    · obtain rfl | rfl := hst <;> cases hload
    · obtain rfl | rfl := hst <;> cases hunconf

/-- An image installed into an empty directory: every slot is NONE, and nothing was referenced. -/
theorem State.referencesInv_install {s : State} (h : s.ReferencesInv) (hs : s.od.entries = []) (im : Image) (st : StationState) :
    State.ReferencesInv { s.install im with sc := { (s.install im).sc with state := st } } := by
  obtain ⟨hrefs, hpres⟩ := h
  have hzero : ∀ i, s.references i = (0, 0, 0, 0) := fun i => by
    rw [hrefs i, s.called_eq]
    cases i with
    | zero => rfl
    | succ k => rw [State.entry?_succ, hs]; rfl
  refine ⟨fun i => ?_, hpres⟩
  have hcalled : State.called { s.install im with sc := { (s.install im).sc with state := st } } i = (0, 0, 0, 0) := by
    rw [State.called_eq]
    cases i with
    | zero => rfl
    | succ k =>
      rw [State.entry?_succ]
      show (((im.decls.map Entry.installed)[k]?).map fun e => e.slot.calls).getD (0, 0, 0, 0) = _
      rw [List.getElem?_map]
      cases im.decls[k]? <;> rfl
  rw [hcalled]
  have h0 := hzero i
  simp only [State.references, Prod.mk.injEq] at h0
  simp [State.references, State.install, h0]

theorem State.Move.referencesInv {ok : Prop} {s t : State} (h : State.Move ok s t) (hs : s.ReferencesInv) (he : s.EarlyEmpty) :
    t.ReferencesInv := by
  cases h with
  | plain h =>
    obtain ⟨hrefs, hpres⟩ := hs
    have hcores : ∀ i, t.called i = s.called i := fun i => by
      rw [t.called_eq, s.called_eq]
      cases i with
      | zero => rfl
      | succ k =>
        have hk := congrArg (fun l => (l[k]?).map Prod.snd) h.cores
        simp only [List.getElem?_map, Option.map_map] at hk
        exact congrArg (fun c => Option.getD c (0, 0, 0, 0)) hk
    refine ⟨fun i => ?_, by rw [h.ts, h.presence.1, hpres]⟩
    rw [hcores i, ← hrefs i]
    unfold State.references
    rw [h.ts, h.urgentOwed, h.routineOwed]
  | post k id tag v =>
    refine State.referencesInv_congr (State.telegrams_post s k id tag v) (fun i => ?_) hs
    rw [State.called_eq, s.entry?_post, ← s.called_eq]
  | bump c =>
    refine State.referencesInv_congr (State.telegrams_bump s c) (fun i => ?_) hs
    rw [State.called_eq, s.entry?_bump, ← s.called_eq]
  | append o hi => exact State.referencesInv_append hs hi o
  | withdraw i => exact State.referencesInv_withdraw hs i
  | requestPresence st => exact State.referencesInv_requestPresence hs st
  | dropPresence => exact State.referencesInv_dropPresence hs
  | takeUrgent hq => exact State.referencesInv_takeUrgent hq hs
  | takeRoutine hq => exact State.referencesInv_takeRoutine hq hs
  | flush => exact State.referencesInv_flush s
  | lineRestart => exact State.referencesInv_flush _
  | install hearly _ _ => exact State.referencesInv_install hs (he hearly) _ _

theorem State.popEvent_eq (s : State) : ∃ eu, s.popEvent = { s with eu := eu } := by
  unfold State.popEvent
  split
  · exact ⟨_, rfl⟩
  · split <;> exact ⟨_, rfl⟩

end Sys2Proof.Machine

/-! ## The statement -/

namespace Sys2Proof
open Sys2Proof.Machine

/-- Settles O59: each move keeps the references, given that the directory is empty before installation, which each move keeps too. -/
theorem everyReferenceStandsExactlyWhereItsSlotSays : Obligations.EveryReferenceStandsExactlyWhereItsSlotSays := by
  intro s t ho hs h
  have hempty : s.EarlyEmpty := by
    obtain ⟨-, -, -, hreading, hbefore⟩ := ho
    rintro (hread | hstate)
    · exact hbefore (.inl (hreading hread))
    · exact hbefore hstate
  refine (step_keeps_of_moves (P := fun s => s.ReferencesInv ∧ s.EarlyEmpty) (fun _ _ => id)
    (fun _ _ _ _ hm hs => ⟨hm.referencesInv hs.1 hs.2, hm.earlyEmpty hs.2⟩) (fun s hs => ?_) (fun s cause => ?_) ⟨hs, hempty⟩ h).1
  · obtain ⟨eu, hpop⟩ := s.popEvent_eq
    rw [hpop]
    exact hs
  · exact ⟨State.referencesInv_flush State.reset, fun _ => rfl⟩

end Sys2Proof
end

section
/-! PROOFS. What the moves keep of the tables and the buffers (R1, R2, R11, R77, R106, R120, R161, R172), and from it the statements O56 and O57. -/

namespace Sys2Proof.Machine

-- One proof is elaborated at a time: all that the text still has in flight here would not fit the check's memory limit.
set_option Elab.async false

/-! ## A validated image -/

/-- A declaration that decodes has its fields in their ranges (R2, R3, R163). -/
theorem Memory.inRange_of_declAt {m : Memory} {o : Nat} {d : Decl} (h : m.declAt o = some d) : d.InRange := by
  unfold Memory.declAt at h
  split at h
  next role notify hrole hnotify =>
    dsimp only at h
    split at h
    next hfields =>
      obtain ⟨hid, hid', hspare, hmax, hmax', hrefresh, hrefresh', hfactor, hfactor', hspacing⟩ := hfields
      cases h
      have hobject : (BitVec.ofNat 12 (m.read16 o).toNat).toNat = (m.read16 o).toNat := Nat.mod_eq_of_lt (by omega)
      refine ⟨Nat.le_trans hid (Nat.le_of_eq hobject.symm), Nat.le_trans (Nat.le_of_eq hobject) hid', hmax, hmax', hrefresh, hrefresh', hfactor,
        hfactor', by show 10 * _ ≤ _; omega,
        Nat.mul_mod_right 10 _, ?_⟩
      cases role with
      | home | listen => exact ⟨rfl, rfl⟩
      | spare =>
        obtain ⟨hrank, hrank'⟩ := hspare rfl
        have himage : (BitVec.ofNat 4 (m.read (o + 3)).toNat).toNat = (m.read (o + 3)).toNat := Nat.mod_eq_of_lt (by omega)
        exact ⟨Nat.le_trans hrank (Nat.le_of_eq himage.symm), Nat.le_trans (Nat.le_of_eq himage) hrank'⟩
    next => cases h
  next => cases h

/-- The declarations that decode are as many as counted, each in range. -/
theorem Memory.declsFrom_ok_inRange {m : Memory} : ∀ {n k : Nat} {ds : List Decl}, m.declsFrom k n = .ok ds → ds.length = n ∧ ∀ d ∈ ds, d.InRange
  | 0, _, _, h => by cases h; exact ⟨rfl, fun d hd => by cases hd⟩
  | n + 1, k, ds, h => by
    cases hd : m.declAt (declOffset k) with
    | none => simp only [Memory.declsFrom, hd] at h; cases h
    | some d =>
      cases ht : m.declsFrom (k + 1) n with
      | error j => simp only [Memory.declsFrom, hd, ht] at h; cases h
      | ok tail =>
        simp only [Memory.declsFrom, hd, ht, Except.ok.injEq] at h
        obtain ⟨hlen, htail⟩ := Memory.declsFrom_ok_inRange ht
        subst h
        exact ⟨congrArg (· + 1) hlen, List.forall_mem_cons.mpr ⟨m.inRange_of_declAt hd, htail⟩⟩

/-- Declarations that repeat no object id have distinct ones, none of them seen before. -/
theorem firstRepeat_eq_none {seen : List (BitVec 12)} {k : Nat} : ∀ {ds : List Decl}, firstRepeat seen k ds = none →
    (ds.map fun d => d.objectId).Nodup ∧ ∀ d ∈ ds, d.objectId ∉ seen := by
  intro ds
  induction ds generalizing seen k with
  | nil => exact fun _ => ⟨List.nodup_nil, fun d hd => by cases hd⟩
  | cons d ds ih =>
    intro h
    unfold firstRepeat at h
    split at h
    · cases h
    next hnew =>
      obtain ⟨hnodup, hseen⟩ := ih h
      refine ⟨List.nodup_cons.mpr ⟨fun hmem => ?_, hnodup⟩, List.forall_mem_cons.mpr ⟨fun hmem => ?_, fun d' hd' => ?_⟩⟩
      · obtain ⟨d', hd', heq⟩ := List.mem_map.mp hmem
        exact hseen d' hd' (heq ▸ List.mem_cons_self)
      · exact hnew (List.contains_iff_mem.mpr hmem)
      · exact fun hmem => hseen d' hd' (List.mem_cons_of_mem _ hmem)

/-- A buffer without a fault in its header counts 1 to 64 entries (R164). -/
theorem Memory.entryCount_of_headerFault {m : Memory} (h : m.headerFault = none) : 1 ≤ m.entryCount ∧ m.entryCount ≤ 64 := by
  unfold Memory.headerFault at h
  split at h
  · cases h
  · split at h
    · cases h
    next hcount => exact Classical.not_not.mp hcount

/-- What validation establishes of the declarations. -/
theorem Memory.decls_of_validate {m : Memory} {im : Image} (h : m.validate = .ok im) :
    im.decls.length ≤ 64 ∧ (∀ d ∈ im.decls, d.InRange) ∧ (im.decls.map fun d => d.objectId).Nodup := by
  unfold Memory.validate at h
  split at h
  · cases h
  next hheader =>
    split at h
    · cases h
    · split at h
      · cases h
      next decls hdecls =>
        split at h
        · cases h
        next hrepeat =>
          cases h
          obtain ⟨hlen, hrange⟩ := Memory.declsFrom_ok_inRange hdecls
          exact ⟨hlen ▸ (Memory.entryCount_of_headerFault hheader).2, hrange, (firstRepeat_eq_none hrepeat).1⟩

/-! ## The tables -/

/-- The tables, as what the entries hold, the number of peer rows and what is received. -/
theorem State.tablesInv_iff (s : State) : s.TablesInv ↔
    (s.od.entries.map Entry.decl).length ≤ 64 ∧ (∀ d ∈ s.od.entries.map Entry.decl, d.InRange) ∧ (∀ e ∈ s.od.entries, e.ValueFits)
      ∧ ((s.od.entries.map Entry.decl).map fun d => d.objectId).Nodup ∧ s.pm.rows.length = 31 ∧ s.Carried := by
  simp only [State.TablesInv, State.Carried, Entry.ValueFits, List.length_map, List.forall_mem_map, List.map_map, Function.comp_def]
  constructor
  · rintro ⟨hlen, hentries, hnodup, hrest⟩
    exact ⟨hlen, fun e he => (hentries e he).1, fun e he => (hentries e he).2, hnodup, hrest⟩
  · rintro ⟨hlen, hrange, hvalues, hnodup, hrest⟩
    exact ⟨hlen, fun e he => ⟨hrange e he, hvalues e he⟩, hnodup, hrest⟩

theorem State.tablesInv_reslots {s t : State} (h : s.Reslots t) (hs : s.TablesInv) : t.TablesInv := by
  rw [State.tablesInv_iff] at hs ⊢
  obtain ⟨hlen, hrange, hvalues, hnodup, hrows, hcarried⟩ := hs
  have hdecls : t.od.entries.map Entry.decl = s.od.entries.map Entry.decl := by
    have hfst := congrArg (List.map Prod.fst) h.held
    rw [List.map_map, List.map_map] at hfst
    exact hfst
  refine ⟨hdecls ▸ hlen, hdecls ▸ hrange, ?_, hdecls ▸ hnodup, h.pm ▸ hrows, ?_⟩
  · have hvals : ∀ p ∈ s.od.entries.map Entry.held, p.2.length ≤ p.1.maxLength := List.forall_mem_map.mpr hvalues
    rw [← h.held] at hvals
    exact (List.forall_mem_map (P := fun p : Decl × List Byte => p.2.length ≤ p.1.maxLength)).mp hvals
  · unfold State.Carried at hcarried ⊢
    rwa [h.tf, h.toTf, h.toOd, h.toRing]

/-- An installed image's entries are its declarations, with no value held. -/
theorem State.tablesInv_install {s : State} (hs : s.TablesInv) {im : Image} (hv : s.il.staging.validate = .ok im) (st : StationState) :
    State.TablesInv { s.install im with sc := { (s.install im).sc with state := st } } := by
  obtain ⟨hlen, hrange, hnodup⟩ := Memory.decls_of_validate hv
  rw [State.tablesInv_iff] at hs ⊢
  obtain ⟨-, -, -, -, hrows, hcarried⟩ := hs
  have hdecls : (im.decls.map Entry.installed).map Entry.decl = im.decls := by simp [Function.comp_def, Entry.installed]
  refine ⟨?_, ?_, ?_, ?_, ?_, hcarried⟩
  · show ((im.decls.map Entry.installed).map Entry.decl).length ≤ 64
    rwa [hdecls]
  · show ∀ d ∈ (im.decls.map Entry.installed).map Entry.decl, d.InRange
    rwa [hdecls]
  · exact List.forall_mem_map.mpr fun d _ => Nat.zero_le _
  · show (((im.decls.map Entry.installed).map Entry.decl).map fun d => d.objectId).Nodup
    rwa [hdecls]
  · show (s.pm.rows.map fun _ => PeerRow.cleared im.period).length = 31
    rwa [List.length_map]

theorem State.Move.tablesInv {ok : Prop} (hok : ok) {s t : State} (h : State.Move ok s t) (hs : s.TablesInv) : t.TablesInv := by
  obtain hplain | hmove | ⟨im, st, _, hv, _, rfl⟩ := h.cases_reslots
  · rw [State.tablesInv_iff] at hs ⊢
    obtain ⟨hlen, hrange, hvalues, hnodup, hrows, hcarried⟩ := hs
    have hdecls : t.od.entries.map Entry.decl = s.od.entries.map Entry.decl := by
      have hfst := congrArg (List.map Prod.fst) hplain.cores
      rw [List.map_map, List.map_map] at hfst
      exact hfst
    exact ⟨hdecls ▸ hlen, hdecls ▸ hrange, hplain.values hok hvalues, hdecls ▸ hnodup, hplain.rows.trans hrows, hplain.carried hok hcarried⟩
  · exact State.tablesInv_reslots hmove hs
  · exact State.tablesInv_install hs hv st

/-! ## The buffers -/

/-- The buffers by their parts: the port, the image loader, and the state in which the memory is read. -/
theorem State.buffersInv_iff (s : State) : s.BuffersInv ↔ s.lp.Fits ∧ s.il.Fits ∧ (s.il.phase.isReading = true → s.sc.state = .loading) := by
  constructor
  · rintro ⟨hrequest, hport, hstaging, hreads, hphase⟩
    exact ⟨⟨hrequest, hport⟩, ⟨hstaging, hphase⟩, hreads⟩
  · rintro ⟨⟨hrequest, hport⟩, ⟨hstaging, hphase⟩, hreads⟩
    exact ⟨hrequest, hport, hstaging, hreads, hphase⟩

theorem State.Move.buffersInv {ok : Prop} (hok : ok) {s t : State} (h : State.Move ok s t) (hs : s.BuffersInv) : t.BuffersInv := by
  rw [State.buffersInv_iff] at hs ⊢
  obtain ⟨hlp, hil, hreads⟩ := hs
  obtain hplain | hmove | ⟨im, st, _, _, _, rfl⟩ := h.cases_reslots
  · refine ⟨hplain.lp hok hlp, hplain.il hreads hil, fun hread => ?_⟩
    obtain ⟨hread, hload⟩ := hplain.reads hread
    exact hload (hreads hread)
  · rw [hmove.lp, hmove.il, hmove.station]
    exact ⟨hlp, hil, hreads⟩
  · exact ⟨hlp, ⟨hil.1, trivial⟩, fun hread => by cases hread⟩

end Sys2Proof.Machine

/-! ## The statements -/

namespace Sys2Proof
open Sys2Proof.Machine

/-- The tables hold after a full restart. -/
theorem tablesInv_fullRestart (s : State) (cause : StationCause) : (s.fullRestart cause).TablesInv :=
  ⟨Nat.zero_le 64, fun e he => by (cases he), List.nodup_nil, rfl, Nat.zero_le 4, fun t ht => by (cases ht), fun t ht => by (cases ht),
    fun c hc => by (cases hc)⟩

/-- Settles O57: each move keeps the tables, and an image is installed only once it is validated. -/
theorem theTablesKeepTheirSizesAndRanges : Obligations.TheTablesKeepTheirSizesAndRanges := by
  intro s t hs h
  refine step_keeps_of_moves (P := fun s => s.TablesInv) (fun _ _ => id) (fun _ _ _ hok hm => hm.tablesInv hok) (fun s hs => ?_)
    tablesInv_fullRestart hs h
  obtain ⟨eu, hpop⟩ := s.popEvent_eq
  rw [hpop]
  exact hs

/-- Settles O56: each move keeps the buffers within their sizes, given the bounds on the tables where the command starts. -/
theorem theBuffersStayWithinTheirSizes : Obligations.TheBuffersStayWithinTheirSizes := by
  intro s t hs htables h
  refine (step_keeps_of_moves (P := fun s => s.BuffersInv ∧ s.TablesInv) (fun _ _ => id)
    (fun _ _ _ hok hm hs => ⟨hm.buffersInv hok.2 hs.1, hm.tablesInv hok.2 hs.2⟩) (fun s hs => ?_) (fun s cause => ?_) ⟨hs, htables⟩ h).1
  · obtain ⟨eu, hpop⟩ := s.popEvent_eq
    rw [hpop]
    exact hs
  · exact ⟨⟨⟨rfl, rfl⟩, trivial, ⟨rfl, rfl⟩, fun _ => rfl, trivial⟩, tablesInv_fullRestart s cause⟩

end Sys2Proof
end

section
/-! PROOFS. The machine as a whole: a step, a full restart, RST_N low, the attention output and the invariants after reset (R145, R171, R194, R198);
and from these the statements O1, O3, O4, O10 and O60. -/

namespace Sys2Proof.Machine

-- One proof is elaborated at a time: all that the text still has in flight here would not fit the check's memory limit.
set_option Elab.async false

/-! ## RST_N low -/

/-- While RST_N is low every command but power-up and the release of RST_N leaves the state as it is (R171). -/
theorem exec_rstLow {s : State} (h : s.rstLow = true) {c : Instr} (hp : c ≠ .powerUp) (hr : c ≠ .rstNRelease) : exec c s = .next s := by
  cases c with
  | powerUp => exact absurd rfl hp
  | rstNRelease => exact absurd rfl hr
  | rstNAssert => exact congrArg Host.Outcome.next (by rw [← h])
  | _ => exact congrArg Host.Outcome.next (if_pos h)

/-! ## Attention -/

theorem State.portDone_iff (s : State) : s.portDone = true ↔ ∃ q, s.lp.port = .done q := by
  unfold State.portDone
  cases s.lp.port <;> simp

/-! ## Full restart -/

/-- RESTART of scope FULL on the port with RST_N high restarts the part (R159). -/
theorem exec_restartFull {s : State} {r : Request} (h : s.serves .restart r) (hf : r.first = 2#8) :
    exec .restartFull s = .next (s.fullRestart .restartFull) := by
  have hr : s.rstLow = false := h.1
  show Host.Outcome.next (if s.rstLow then s else _) = _
  rw [if_neg (by rw [hr]; exact Bool.false_ne_true)]
  dsimp only
  rw [State.withRequest_serves h, if_pos hf]

end Sys2Proof.Machine

/-! ## The statements -/

namespace Sys2Proof
open Sys2Proof.Machine

/-- Settles O1: a step runs what stands at the front. -/
theorem aStepRunsTheFrontCommandAndIdlesOnAnEmptyQueue : Obligations.AStepRunsTheFrontCommandAndIdlesOnAnEmptyQueue :=
  ⟨fun _ _ => rfl, fun s h => by unfold step; rw [h]⟩

/-- Settles O3: the restart values are those of the reset state, which every way of restarting leads to. -/
theorem aFullRestartGivesEveryBlockItsRestartValues : Obligations.AFullRestartGivesEveryBlockItsRestartValues := by
  refine ⟨⟨rfl, rfl, rfl, rfl, rfl, ?rows, rfl, rfl, rfl, rfl, rfl⟩, fun s => rfl, fun s h => ?release, fun s r h hf => ?request⟩
  case rows =>
    intro row hrow
    rw [List.eq_of_mem_replicate hrow]
    exact ⟨rfl, rfl, rfl⟩
  case release => exact congrArg Host.Outcome.next (if_pos h)
  case request =>
    rw [exec_restartFull h hf, State.fullRestart, h.1]
    rfl

/-- Settles O4: the two events that RST_N low leaves, and the outputs while it is low. -/
theorem whileRstNIsLowThePartTakesNoEvent : Obligations.WhileRstNIsLowThePartTakesNoEvent := by
  refine ⟨fun s => rfl, fun s h => ⟨fun c => exec_rstLow h, ?_, ?_, fun bit => if_pos h, fun addr => if_pos h⟩⟩
  · simp [State.attention, h]
  · simp [State.txen, h]

/-- Settles O10: the attention output, record by record. -/
theorem attentionFollowsTheQueueTheMaskAndThePort : Obligations.AttentionFollowsTheQueueTheMaskAndThePort := by
  intro s
  simp only [State.attention, Bool.and_eq_true, Bool.not_eq_true', Bool.or_eq_true, List.any_eq_true, State.portDone_iff]
  refine and_congr_right fun _ => or_congr_left (exists_congr fun r => and_congr_right fun _ => ?_)
  cases hk : r.kind <;> simp [EventKind.category, enabled, Category.position]

/-- Settles O60: nothing is queued, owed or held after reset. -/
theorem theInvariantsHoldAfterReset : Obligations.TheInvariantsHoldAfterReset := by
  refine ⟨⟨Nat.le_add_left 1 31, fun h => absurd rfl h⟩, State.queuesInv_flush State.reset, ⟨⟨rfl, rfl⟩, trivial, ⟨rfl, rfl⟩, fun _ => rfl, trivial⟩,
    tablesInv_fullRestart State.reset .reset, ?ownership, State.referencesInv_flush State.reset⟩
  exact ⟨fun e he => by (cases he), fun h => by (cases h), fun h => by (cases h), fun _ => rfl, fun _ => rfl⟩

end Sys2Proof
end

section
/-! PROOFS. Requests (R172 to R178, R187, R188): a request in a state that accepts it and in one that does not, the answer every request ends with,
the port window; and from these the statements O5, O11 and O12. -/

namespace Sys2Proof.Machine

-- One proof is elaborated at a time: all that the text still has in flight here would not fit the check's memory limit.
set_option Elab.async false

/-! ## Acceptance -/

/-- A request on the port is taken in the states that accept it, and answered WRONG_STATE in the others (R177). -/
theorem State.accepting_eq {s : State} {c : RequestCode} {r : Request} (h : s.serves c r) (k : Request → State) :
    s.accepting c k = if c.acceptedIn s.sc.state = true then k r else s.answer r .wrongState := State.withRequest_serves h _

/-- The command of a request that is accepted. -/
theorem State.taken_accepting {s : State} {c : RequestCode} {r : Request} (h : s.serves c r) (ha : c.acceptedIn s.sc.state = true)
    (k : State → Request → State) : s.taken (fun s => s.accepting c (k s)) = .next (k s r) :=
  (State.taken_high h.1 _).trans (congrArg Host.Outcome.next (State.accepting_serves h ha (k s)))

/-- No entry carries the object id of the request: NO_OBJECT (R179). -/
theorem State.atObject_lacks {s : State} {r : Request} (h : s.lacks r.objectId.toNat) (k : Nat → Entry → State) :
    s.atObject r k = s.answer r .noObject := by
  have hnone : s.find r.objectId.toNat = none := Option.not_isSome_iff_eq_none.mp (mt (s.find_isSome_iff _).mp (Classical.not_not.mpr h))
  unfold State.atObject
  rw [hnone]

/-! ## Every request is answered -/

/-- The port is DONE, with any status but WRONG_STATE. -/
def State.Answered (s : State) : Prop := ∃ q, s.lp.port = .done q ∧ q.status ≠ .wrongState

theorem State.answered_complete (s : State) {q : Response} (h : q.status ≠ .wrongState) : (s.complete q).Answered := ⟨q, rfl, h⟩

theorem State.answered_answer (s : State) (r : Request) {st : Status} (h : st ≠ .wrongState) : (s.answer r st).Answered := ⟨_, rfl, h⟩

theorem State.answered_atObject {s : State} {r : Request} {k : Nat → Entry → State} (h : ∀ i e, (k i e).Answered) : (s.atObject r k).Answered := by
  unfold State.atObject
  split
  · exact s.answered_answer r (by decide)
  · split
    · exact s.answered_answer r (by decide)
    · exact h _ _

theorem State.answered_readTaken (s : State) (r : Request) : (s.readTaken r).Answered :=
  State.answered_atObject fun _ _ => s.answered_complete (by decide : Status.ok ≠ .wrongState)

theorem State.answered_peerTaken (s : State) (r : Request) : (s.peerTaken r).Answered := by
  unfold State.peerTaken
  split
  · exact s.answered_answer r (by decide)
  · split
    · exact s.answered_answer r (by decide)
    · exact s.answered_complete (by decide : Status.ok ≠ .wrongState)

theorem State.answered_takeUnlistedTaken (s : State) (r : Request) : (s.takeUnlistedTaken r).Answered := by
  unfold State.takeUnlistedTaken
  split
  · exact s.answered_answer r (by decide)
  · exact State.answered_complete _ (by decide : Status.ok ≠ .wrongState)

theorem State.answered_writeTaken (s : State) (r : Request) : (s.writeTaken r).Answered := by
  refine State.answered_atObject fun i e => ?_
  cases e.ownership with
  | own =>
    dsimp only
    split
    · exact s.answered_answer r (by decide)
    · exact State.answered_complete _ (by decide : Status.ok ≠ .wrongState)
  | consumer _ | claiming _ _ | yielding => exact s.answered_answer r (by decide)

theorem State.answered_claimTaken (s : State) (r : Request) : (s.claimTaken r).Answered := by
  refine State.answered_atObject fun i e => ?_
  split
  · exact s.answered_answer r (by decide)
  · split
    · exact s.answered_answer r (by decide)
    · exact State.answered_answer _ r (by decide)

theorem State.answered_releaseTaken (s : State) (r : Request) : (s.releaseTaken r).Answered := by
  refine State.answered_atObject fun i e => ?_
  cases e.ownership with
  | own => exact State.answered_answer _ r (by decide)
  | claiming _ _ =>
    refine State.answered_answer _ r ?_
    cases e.slot <;> exact fun h => by cases h
  | consumer _ | yielding => exact s.answered_answer r (by decide)

theorem State.answered_queryTaken (s : State) (r : Request) : (s.queryTaken r).Answered := by
  refine State.answered_atObject fun i e => ?_
  split
  · exact s.answered_answer r (by decide)
  · exact State.answered_answer _ r (by decide)

theorem State.answered_joinTaken (s : State) (r : Request) : (s.joinTaken r).Answered := State.answered_answer _ r (by decide)

theorem State.answered_leaveTaken (s : State) (r : Request) : (s.leaveTaken r).Answered := by
  unfold State.leaveTaken
  split
  · exact State.answered_answer _ r (by decide)
  · exact State.answered_answer _ r (by decide)

/-- LOAD's checks refuse with LENGTH or BAD_REQUEST (R168). -/
theorem Request.loadRefusal_ne_wrongState {r : Request} {st : Status} (h : r.loadRefusal = some st) : st ≠ .wrongState := by
  rintro rfl
  unfold Request.loadRefusal at h
  split at h
  · cases h
  · split at h
    · split at h <;> cases h
    · split at h <;> cases h

theorem State.answered_loadTaken (s : State) (r : Request) : (s.loadTaken r).Answered := by
  unfold State.loadTaken
  split
  next st hst => exact s.answered_answer r (Request.loadRefusal_ne_wrongState hst)
  next => exact State.answered_answer _ r (by decide)

theorem State.answered_loadFinishTaken (s : State) (r : Request) : (s.loadFinishTaken r).Answered := by
  unfold State.loadFinishTaken
  split
  next st hst => exact s.answered_answer r (Request.loadRefusal_ne_wrongState hst)
  next =>
    dsimp only
    split
    · exact State.answered_answer _ r (by decide)
    · exact State.answered_complete _ (by decide : Status.imageFault ≠ .wrongState)

/-- A row of the table of R177: a command that takes its request by `k` in the states listed, where `k` answers it. -/
theorem State.acceptance_row {c : Instr} {code : RequestCode} {states : List StationState} {s : State} {r : Request} (h : s.serves code r)
    (k : Request → State) (hexec : exec c s = .next (s.accepting code k))
    (hstates : ∀ st, st ∈ states ↔ code.acceptedIn st = true) (hk : (k r).Answered) :
    (s.sc.state ∉ states → exec c s = .next (s.responded (bare r.code r.tag .wrongState)))
      ∧ (s.sc.state ∈ states → ∃ t q, exec c s = .next t ∧ t.lp.port = .done q ∧ q.status ≠ .wrongState) := by
  rw [hexec, State.accepting_eq h]
  refine ⟨fun hout => ?_, fun hin => ?_⟩
  · rw [if_neg (mt (hstates _).mpr hout)]
    rfl
  · obtain ⟨q, hq, hst⟩ := hk
    rw [if_pos ((hstates _).mp hin)]
    exact ⟨_, q, rfl, hq, hst⟩

/-- The same for a command that takes the request on the port as it stands. -/
theorem State.acceptance_row_taken {c : Instr} {code : RequestCode} {states : List StationState} {s : State} {r : Request} (h : s.serves code r)
    (k : State → Request → State) (hexec : exec c s = s.taken fun s => s.accepting code (k s))
    (hstates : ∀ st, st ∈ states ↔ code.acceptedIn st = true) (hk : (k s r).Answered) :
    (s.sc.state ∉ states → exec c s = .next (s.responded (bare r.code r.tag .wrongState)))
      ∧ (s.sc.state ∈ states → ∃ t q, exec c s = .next t ∧ t.lp.port = .done q ∧ q.status ≠ .wrongState) :=
  State.acceptance_row h (k s) (hexec.trans (State.taken_high h.1 _)) hstates hk

end Sys2Proof.Machine

/-! ## The statements -/

namespace Sys2Proof
open Sys2Proof.Machine

/-- Settles O11: both requests are taken in every state. -/
theorem countersAreReturnedAndClearedAndTheMaskIsReplaced : Obligations.CountersAreReturnedAndClearedAndTheMaskIsReplaced := by
  refine ⟨fun s r h => ?_, fun s r h => ?_, rfl⟩
  · obtain ⟨-, hcode, -⟩ := id h
    refine (State.taken_accepting h rfl State.countersTaken).trans (congrArg Host.Outcome.next ?_)
    unfold State.countersTaken State.complete Request.answer bare
    rw [hcode]
    rfl
  · obtain ⟨-, hcode, -⟩ := id h
    refine (State.taken_accepting h rfl State.attendTaken).trans (congrArg Host.Outcome.next ?_)
    unfold State.attendTaken State.complete Request.answer bare
    rw [hcode]
    rfl

/-- Settles O12: the table row by row; every request taken is answered in the same event. -/
theorem eachRequestIsAcceptedInTheStatesOfTheTable : Obligations.EachRequestIsAcceptedInTheStatesOfTheTable := by
  refine ⟨fun c code states hrow s r h hload hfinish hline => ?table, fun s r h hf => ⟨_, exec_restartFull h hf, rfl, rfl⟩⟩
  simp only [List.mem_cons, Prod.mk.injEq, List.not_mem_nil, or_false] at hrow
  obtain ⟨rfl, rfl, rfl⟩ | ⟨rfl, rfl, rfl⟩ | ⟨rfl, rfl, rfl⟩ | ⟨rfl, rfl, rfl⟩ | ⟨rfl, rfl, rfl⟩ | ⟨rfl, rfl, rfl⟩ | ⟨rfl, rfl, rfl⟩
    | ⟨rfl, rfl, rfl⟩ | ⟨rfl, rfl, rfl⟩ | ⟨rfl, rfl, rfl⟩ | ⟨rfl, rfl, rfl⟩ | ⟨rfl, rfl, rfl⟩ | ⟨rfl, rfl, rfl⟩ | ⟨rfl, rfl, rfl⟩
    | ⟨rfl, rfl, rfl⟩ := hrow
  · exact State.acceptance_row_taken h State.readTaken rfl (fun st => by cases st <;> decide) (s.answered_readTaken r)
  · exact State.acceptance_row_taken h State.peerTaken rfl (fun st => by cases st <;> decide) (s.answered_peerTaken r)
  · exact State.acceptance_row_taken h State.takeUnlistedTaken rfl (fun st => by cases st <;> decide) (s.answered_takeUnlistedTaken r)
  · exact State.acceptance_row_taken h State.writeTaken rfl (fun st => by cases st <;> decide) (s.answered_writeTaken r)
  · exact State.acceptance_row_taken h State.claimTaken rfl (fun st => by cases st <;> decide) (s.answered_claimTaken r)
  · exact State.acceptance_row_taken h State.releaseTaken rfl (fun st => by cases st <;> decide) (s.answered_releaseTaken r)
  · exact State.acceptance_row_taken h State.queryTaken rfl (fun st => by cases st <;> decide) (s.answered_queryTaken r)
  · exact State.acceptance_row_taken h State.joinTaken rfl (fun st => by cases st <;> decide) (s.answered_joinTaken r)
  · exact State.acceptance_row_taken h State.leaveTaken rfl (fun st => by cases st <;> decide) (s.answered_leaveTaken r)
  · refine State.acceptance_row h s.loadTaken ((State.taken_high h.1 fun s => s.withRequest .load fun r =>
      if r.finish then s else s.accepting .load s.loadTaken).trans (congrArg Host.Outcome.next ?_))
      (fun st => by cases st <;> decide) (s.answered_loadTaken r)
    refine (State.withRequest_serves h _).trans (if_neg ?_)
    rw [Request.finish, hload rfl]
    exact Bool.false_ne_true
  · refine State.acceptance_row h s.loadFinishTaken ((State.taken_high h.1 fun s => s.withRequest .load fun r =>
      if r.finish then s.accepting .load s.loadFinishTaken else s).trans (congrArg Host.Outcome.next ?_))
      (fun st => by cases st <;> decide) (s.answered_loadFinishTaken r)
    exact (State.withRequest_serves h _).trans (if_pos (hfinish rfl))
  · refine State.acceptance_row h s.restartLineTaken ((State.taken_high h.1 fun s => s.withRequest .restart fun r =>
      if r.first = 1#8 then s.accepting .restart s.restartLineTaken else s).trans (congrArg Host.Outcome.next ?_))
      (fun st => by cases st <;> decide) (State.answered_answer _ r (by decide))
    exact (State.withRequest_serves h _).trans (if_pos (hline rfl))
  · exact State.acceptance_row_taken h (fun s r => s.complete (s.statusResponse r)) rfl (fun st => by cases st <;> decide)
      (s.answered_complete (by decide : Status.ok ≠ .wrongState))
  · exact State.acceptance_row_taken h State.countersTaken rfl (fun st => by cases st <;> decide)
      (State.answered_complete _ (by decide : Status.ok ≠ .wrongState))
  · exact State.acceptance_row_taken h State.attendTaken rfl (fun st => by cases st <;> decide)
      (State.answered_complete _ (by decide : Status.ok ≠ .wrongState))

end Sys2Proof
end

section
/-! PROOFS. The port window (R172, R204, R205): what a write at an address does and what a read shows, and from these the statement O5. -/

namespace Sys2Proof.Machine

-- One proof is elaborated at a time: all that the text still has in flight here would not fit the check's memory limit.
set_option Elab.async false

/-! ## Writes -/

theorem exec_portWrite {s : State} (hr : s.rstLow = false) (addr : BitVec 6) (byte : Byte) :
    exec (.portWrite addr byte) s = .next (s.portWritten addr byte) := State.taken_high hr (·.portWritten addr byte)

/-- The request area stores the byte (R172). -/
theorem State.portWritten_area {addr : BitVec 6} (h : addr.toNat < 40) (s : State) (byte : Byte) :
    s.portWritten addr byte = { s with lp := { s.lp with request := s.lp.request.write addr.toNat byte } } := if_pos h

/-- Addresses from 40 on are commands or take nothing (R172). -/
theorem State.portWritten_command {addr : BitVec 6} (h : 40 ≤ addr.toNat) (s : State) (byte : Byte) :
    s.portWritten addr byte = if addr.toNat = 49 then s.submitWritten else if addr.toNat = 50 then s.retireWritten
      else if addr.toNat = 51 then s.popEvent else s := if_neg (Nat.not_lt.mpr h)

/-! ## Reads -/

theorem State.portRead_eq {s : State} (hr : s.rstLow = false) (addr : BitVec 6) : s.portRead addr = some (s.window addr) := by
  unfold State.portRead
  rw [hr]
  rfl

/-- The request or response area: the response in DONE (R204). -/
theorem State.window_done {s : State} {q : Response} (h : s.lp.port = .done q) {addr : BitVec 6} (ha : addr.toNat < 40) :
    s.window addr = q.byte addr.toNat := by
  simp only [State.window, h, ha, if_true]

/-- Outside DONE the area reads as it was written (R172). -/
theorem State.window_request {s : State} (h : ∀ q, s.lp.port ≠ .done q) {addr : BitVec 6} (ha : addr.toNat < 40) :
    s.window addr = s.lp.request.read addr.toNat := by
  unfold State.window
  simp only [ha, if_true]
  split
  next q hq => exact absurd hq (h q)
  all_goals rfl

theorem State.window_event (s : State) {addr : BitVec 6} (h : 40 ≤ addr.toNat) (h' : addr.toNat < 48) :
    s.window addr = s.eu.window.bytes.getD (addr.toNat - 40) 0#8 := by
  simp only [State.window, Nat.not_lt.mpr h, h', if_false, if_true]

theorem State.window_state (s : State) {addr : BitVec 6} (h : addr.toNat = 48) : s.window addr = s.lp.stateByte := by
  simp only [State.window, h, Nat.reduceLT, if_false, if_true]

theorem State.window_rest (s : State) {addr : BitVec 6} (h : 49 ≤ addr.toNat) : s.window addr = 0#8 := by
  have h40 : ¬ addr.toNat < 40 := by omega
  have h48 : ¬ addr.toNat < 48 := by omega
  have hne : addr.toNat ≠ 48 := by omega
  simp only [State.window, h40, h48, hne, if_false]

/-- The id field of an event record: bit 15 for an absent version, over the id (R205). -/
theorem eventField_eq (b : Bool) (id : BitVec 12) :
    (if b then 0x8000#16 else 0#16) ||| id.setWidth 16 = (if b then 1#1 else 0#1) ++ 0#3 ++ id := by
  have hid := id.isLt
  have hsame : (id.setWidth 16).toNat = id.toNat := by rw [BitVec.toNat_setWidth, Nat.mod_eq_of_lt (by omega)]
  apply BitVec.eq_of_toNat_eq
  rw [BitVec.toNat_or, hsame, BitVec.toNat_append]
  cases b with
  | false => exact congrArg (· ||| id.toNat) (by decide)
  | true => exact congrArg (· ||| id.toNat) (by decide)

/-- The detail byte of a STATION record: state and cause side by side (R205). -/
theorem stationDetail_eq (st : StationState) (cause : StationCause) :
    st.code ++ cause.code = 16#8 * st.code.setWidth 8 + cause.code.setWidth 8 := by
  cases st <;> cases cause <;> rfl

end Sys2Proof.Machine

/-! ## The statement -/

namespace Sys2Proof
open Sys2Proof.Machine

/-- Settles O5: the addresses of the window one range after the other, with the codes of R204 and R205. -/
theorem thePortWindowStoresRequestsAndShowsResponses : Obligations.ThePortWindowStoresRequestsAndShowsResponses := by
  refine ⟨fun s addr byte hr => ?writes, fun s addr hr => ?reads⟩
  case writes =>
    have hcommand := fun h => (exec_portWrite hr addr byte).trans (congrArg Host.Outcome.next (State.portWritten_command (addr := addr) h s byte))
    refine ⟨fun ha hwf => ⟨_, (exec_portWrite hr addr byte).trans (congrArg _ (s.portWritten_area ha byte)), ?_, fun k hk => ?_⟩,
      fun ha => ?_, fun ha => ?_, fun ha => ?_, fun ha hrest => ?_⟩
    · rw [Memory.read_write _ hwf, if_pos rfl]
    · rw [Memory.read_write _ hwf, if_neg hk]
    · rw [hcommand (by omega), if_pos ha, exec_submit hr]
    · rw [hcommand (by omega), if_neg (by omega), if_pos ha, exec_retire hr]
    · rw [hcommand (by omega), if_neg (by omega), if_neg (by omega), if_pos ha, exec_eventNext hr]
    · rw [hcommand ha, if_neg (by omega), if_neg (by omega), if_neg (by omega)]
  case reads =>
    intro statusValue shown kindAndDetail idField
    rw [State.portRead_eq hr]
    have hstatus : ∀ st, Status.code st = statusValue st := fun st => by cases st <;> rfl
    have hcodes : shown.kind.codes = kindAndDetail := by
      clear_value shown
      obtain ⟨kind, id, tag, version, time⟩ := shown
      cases kind with
      | none | arrival | stale | fresh | valueRefused | unlisted | harvest | lost _ => rfl
      | claimOutcome d | releaseOutcome d | ownershipLost d | ownerChanged d | peer d | backlog d | line d => cases d <;> rfl
      | station st cause =>
        refine congrArg (Prod.mk 13#8) ((stationDetail_eq st cause).trans ?_)
        cases st <;> cases cause <;> rfl
    have hfield : (if shown.version.isNone then 0x8000#16 else 0#16) ||| shown.id.setWidth 16 = idField := by
      rw [eventField_eq]
      cases hv : shown.version <;> simp [idField, hv]
    refine ⟨fun q hq ha => congrArg some ?_, fun hq ha => congrArg some (State.window_request hq ha), fun ha ha' => congrArg some ?_,
      fun ha => congrArg some ?_, fun ha => congrArg some (s.window_rest ha)⟩
    · rw [State.window_done hq ha, Response.byte, hstatus]
    · rw [s.window_event ha ha', EventRecord.bytes, ← hcodes, ← hfield]
    · rw [s.window_state ha, Lp.stateByte]
      cases s.lp.port <;> cases s.lp.submitIgnored <;> dsimp only <;> decide

end Sys2Proof
end

section
/-! PROOFS. The requests taken at the directory, the peer table, the ring and the station (R57, R58, R70, R91, R107, R108, R179 to R186), and from these the
statements O13 to O20. -/

namespace Sys2Proof.Machine

-- One proof is elaborated at a time: all that the text still has in flight here would not fit the check's memory limit.
set_option Elab.async false

/-! ## Answers and refusals -/

/-- An answer with the echo and a status alone (R178). -/
theorem Request.answer_eq {s : State} {c : RequestCode} {r : Request} (h : s.serves c r) (st : Status) : r.answer st = bare c.byte r.tag st := by
  rw [← h.2.1]
  rfl

theorem State.answer_eq {s : State} {c : RequestCode} {r : Request} (h : s.serves c r) (u : State) (st : Status) :
    u.answer r st = u.responded (bare c.byte r.tag st) := congrArg u.complete (Request.answer_eq h st)

/-- A request outside its states (R177). -/
theorem State.taken_refused {s : State} {c : RequestCode} {r : Request} (h : s.serves c r) (ha : ¬ c.acceptedIn s.sc.state = true)
    (k : State → Request → State) : s.taken (fun s => s.accepting c (k s)) = .next (s.responded (bare c.byte r.tag .wrongState)) := by
  rw [State.taken_high h.1, State.accepting_eq h, if_neg ha, State.answer_eq h]

/-- The effect of a request that the station state accepts. -/
theorem State.taken_accepted {s t : State} {c : RequestCode} {r : Request} (h : s.serves c r) (ha : c.acceptedIn s.sc.state = true)
    {k : State → Request → State} (ht : k s r = t) : s.taken (fun s => s.accepting c (k s)) = .next t :=
  (State.taken_accepting h ha k).trans (congrArg Host.Outcome.next ht)

/-- A request at an object no entry carries (R179). -/
theorem State.atObject_noObject {s : State} {c : RequestCode} {r : Request} (h : s.serves c r) (hl : s.lacks r.objectId.toNat)
    (k : Nat → Entry → State) : s.atObject r k = s.responded (bare c.byte r.tag .noObject) :=
  (State.atObject_lacks hl k).trans (State.answer_eq h s _)

theorem State.carries.entry {s : State} {id i : Nat} {e : Entry} (h : s.carries id i e) : s.entry? i = some e := h.2

/-! ## Directory requests at the entry they name -/

section Directory

variable {s : State} {r : Request} {i : Nat} {e : Entry} (hc : s.carries r.objectId.toNat i e)

include hc

theorem State.readTaken_eq : s.readTaken r = s.complete (s.readResponse r e) := State.atObject_carries hc _

theorem State.writeTaken_notOwn (ho : e.ownership ≠ .own) : s.writeTaken r = s.answer r .notOwner := by
  refine (State.atObject_carries hc _).trans ?_
  cases h : e.ownership with
  | own => exact absurd h ho
  | consumer _ | claiming _ _ | yielding => rfl

theorem State.writeTaken_long (ho : e.ownership = .own) (hl : e.decl.maxLength < r.length.toNat) : s.writeTaken r = s.answer r .length := by
  refine (State.atObject_carries hc _).trans ?_
  rw [ho]
  exact if_pos hl

theorem State.writeTaken_fits (ho : e.ownership = .own) (hl : r.length.toNat ≤ e.decl.maxLength) : s.writeTaken r = s.writeValue r i e := by
  refine (State.atObject_carries hc _).trans ?_
  rw [ho]
  exact if_neg (Nat.not_lt.mpr hl)

theorem State.claimTaken_listen (hr : e.decl.role = .listen) : s.claimTaken r = s.answer r .notEligible :=
  (State.atObject_carries hc _).trans (if_pos hr)

theorem State.claimTaken_already (hr : e.decl.role ≠ .listen) (h : e.ownership.isConsumer = false ∨ e.slot.blocksClaim = true) :
    s.claimTaken r = s.answer r .already := ((State.atObject_carries hc _).trans (if_neg hr)).trans (if_pos h)

theorem State.claimTaken_starts (hr : e.decl.role ≠ .listen) (ho : e.ownership.isConsumer = true) (hs : e.slot.blocksClaim = false) :
    s.claimTaken r = ((s.put i { e with pendingTag := some r.tag }).startClaim i).answer r .accepted := by
  refine ((State.atObject_carries hc _).trans (if_neg hr)).trans ((if_neg ?_).trans ?_)
  · rw [ho, hs]
    simp
  · rw [State.modify_eq_put hc.entry]

theorem State.releaseTaken_other (h : e.ownership = .yielding ∨ ∃ v, e.ownership = .consumer v) : s.releaseTaken r = s.answer r .notOwner := by
  refine (State.atObject_carries hc _).trans ?_
  obtain ho | ⟨v, ho⟩ := h <;> rw [ho]

theorem State.releaseTaken_own (ho : e.ownership = .own) :
    s.releaseTaken r = ((s.put i { e with pendingTag := some r.tag }).startYield i none).answer r .accepted := by
  refine (State.atObject_carries hc _).trans ?_
  rw [State.modify_eq_put hc.entry]
  split
  next => rfl
  next h => exact absurd (ho.symm.trans h) (by simp)
  next h => exact absurd (ho.symm.trans h) (by simp)
  next h => exact absurd (ho.symm.trans h) (by simp)

theorem State.releaseTaken_claiming {prior : View} {changed : Bool} (ho : e.ownership = .claiming prior changed) :
    s.releaseTaken r = (s.cancelClaim i).answer r (match e.slot with
      | .inFlight _ _ => .accepted
      | .none | .waiting _ | .owed _ | .queued _ => .ok) := by
  refine (State.atObject_carries hc _).trans ?_
  rw [ho] <;> rfl

theorem State.queryTaken_already (h : e.ownership.isConsumer = false ∨ e.slot.isNone = false) : s.queryTaken r = s.answer r .already :=
  (State.atObject_carries hc _).trans (if_pos h)

theorem State.queryTaken_appends (ho : e.ownership.isConsumer = true) (hs : e.slot.isNone = true) :
    s.queryTaken r = (s.append i queryOut).answer r .ok := by
  refine (State.atObject_carries hc _).trans (if_neg ?_)
  rw [ho, hs]
  simp

end Directory

/-- An own state is no consumer state. -/
theorem Ownership.isConsumer_eq_false_iff (o : Ownership) : o.isConsumer = false ↔ ∀ v, o ≠ .consumer v := by
  cases o <;> simp [Ownership.isConsumer]

theorem Slot.isNone_iff (slot : Slot) : slot.isNone = true ↔ slot = .none := by
  cases slot <;> simp [Slot.isNone]

/-- A change PUBLISH by what the slot holds: a new telegram under spacing, a flag cleared, or a follow-up (R58). -/
theorem State.requestChange_eq {s : State} {i : Nat} {e : Entry} (h : s.entry? i = some e) :
    s.requestChange i = match e.slot with
      | .none => s.publishSpaced i e (publishOf e.decl.cls false false)
      | .waiting o => s.put i { e with slot := .waiting { o with refresh := false } }
      | .owed o => s.put i { e with slot := .owed { o with refresh := false } }
      | .queued o => s.put i { e with slot := .queued { o with refresh := false } }
      | .inFlight o .none => s.put i { e with slot := .inFlight o (.publish e.decl.cls) }
      | .inFlight _ (.publish _) | .inFlight _ (.yield _) | .inFlight _ .cancel => s := by
  unfold State.requestChange
  rw [State.withEntry_some h]
  cases hs : e.slot with
  | none => rfl
  | waiting _ | owed _ | queued _ => exact State.setSlot_eq_put h _
  | inFlight o f =>
    cases f with
    | none => exact State.setSlot_eq_put h _
    | publish _ | yield _ | cancel => rfl

/-- A cancelled claim: at once where its CLAIM waits, at the outcome where it is in flight (R45, R54). -/
theorem State.cancelClaim_eq {s : State} {i : Nat} {e : Entry} (h : s.entry? i = some e) :
    s.cancelClaim i = match e.slot with
      | .inFlight o _ => s.put i { e with slot := .inFlight o .cancel }
      | .none | .waiting _ | .owed _ | .queued _ => ((s.withdraw i).returnToPrior i .cancelled).takeoverIfOrphaned i := by
  unfold State.cancelClaim
  rw [State.withEntry_some h]
  cases e.slot with
  | none | waiting _ | owed _ | queued _ => rfl
  | inFlight o f => exact State.setSlot_eq_put h _

/-! ## The peer table and the ring -/

/-- The number of a station stands in no row of its own (R91). -/
theorem State.peerTaken_bad {s : State} {r : Request} (h : r.first = 0#8 ∨ 31 < r.first.toNat ∨ s.sc.number = some r.first) :
    s.peerTaken r = s.answer r .badRequest := by
  unfold State.peerTaken
  split
  · rfl
  next hgood =>
    obtain ⟨hown, hrange⟩ := not_or.mp hgood
    obtain hzero | hbig | hnumber := h
    · rw [hzero]
      rfl
    · exact absurd hbig hrange
    · exact absurd (by rw [State.ownNumber, hnumber]; rfl) hown

/-- Any other station's row is shown (R91). -/
theorem State.peerTaken_row {s : State} {r : Request} {row : PeerRow} (hrange : r.first.toNat ≤ 31) (hown : s.sc.number ≠ some r.first)
    (hrow : s.rowIs r.first.toNat row) : s.peerTaken r = s.complete (r.peerResponse row) := by
  obtain ⟨hpos, hrow⟩ := hrow
  have hne : r.first ≠ s.ownNumber := fun heq => by
    unfold State.ownNumber at heq
    cases hn : s.sc.number with
    | none => rw [hn] at heq; rw [heq] at hpos; exact absurd hpos (by decide)
    | some n => rw [hn] at heq; exact hown (hn.trans (congrArg some heq.symm))
  have hlookup : s.row? r.first.toNat = some row := by
    obtain ⟨k, hk⟩ := Nat.exists_eq_add_of_le' hpos
    rw [hk] at hrow ⊢
    exact hrow
  unfold State.peerTaken
  rw [if_neg (not_or.mpr ⟨hne, Nat.not_lt.mpr hrange⟩), hlookup]

/-- The count left in bits 15 to 12, over the object id (R204). -/
theorem unlistedField_eq {left : Nat} (h : left ≤ 3) (id : BitVec 12) :
    (BitVec.ofNat 2 left).setWidth 16 <<< 12 ||| id.setWidth 16 = BitVec.ofNat 4 left ++ id := by
  have hid := id.isLt
  have hsame : (id.setWidth 16).toNat = id.toNat := by rw [BitVec.toNat_setWidth, Nat.mod_eq_of_lt (by omega)]
  apply BitVec.eq_of_toNat_eq
  rw [BitVec.toNat_or, hsame, BitVec.toNat_append]
  refine congrArg (· ||| id.toNat) ?_
  match left, h with
  | 0, _ | 1, _ | 2, _ | 3, _ => rfl

theorem ringAppend_eq {ring : List Capture} (h : ring.length ≤ 4) (c : Capture) :
    ringAppend ring c = (if ring.length = 4 then ring.drop 1 else ring) ++ [c] := by
  unfold ringAppend Config.ringCapacity
  split
  next hroom => rw [if_neg (by omega)]
  next hfull => rw [if_pos (by omega), List.drop_one]

theorem exec_capture {s : State} (hr : s.rstLow = false) {t : Telegram} {rest : List Telegram} (h : s.paths.toRing = t :: rest) :
    exec .capture s = .next ({ s with
      paths := { s.paths with toRing := rest }
      tf := { s.tf with ring := ringAppend s.tf.ring ⟨t.objectId, t.source, t.version, t.payload⟩ } }.post
        .unlisted t.objectId 0#8 (some t.version)) := by
  refine (State.taken_high hr State.capture).trans (congrArg Host.Outcome.next ?_)
  unfold State.capture
  rw [h]

/-- The requests of the configured states (R177). -/
theorem acceptedIn_configured {st : StationState} (hl : st ≠ .loading) (hu : st ≠ .unconfigured) :
    RequestCode.acceptedIn .read st = true ∧ RequestCode.acceptedIn .peer st = true ∧ RequestCode.acceptedIn .takeUnlisted st = true := by
  simp [RequestCode.acceptedIn, hl, hu]

end Sys2Proof.Machine

/-! ## The statements -/

namespace Sys2Proof
open Sys2Proof.Machine

/-- Settles O13: the copy, ownership state by ownership state. -/
theorem readAnswersACopyOfTheEntry : Obligations.ReadAnswersACopyOfTheEntry := by
  intro s r h hload hunconf
  have ha := (acceptedIn_configured hload hunconf).1
  refine ⟨fun hl => State.taken_accepted h ha (State.atObject_noObject h hl _), fun i e hc => ?_⟩
  refine State.taken_accepted h ha ((State.readTaken_eq hc).trans ?_)
  unfold State.readResponse State.readField State.shownOwner Request.answer
  obtain ⟨-, hcode, -⟩ := h
  rw [hcode]
  obtain ⟨decl, ownership, version, value, freshness, slot, tag, fresh, refresh, spacing, window, takeover⟩ := e
  cases ownership with
  | consumer view => cases view <;> cases version <;> cases freshness <;> rfl
  | claiming _ _ | own | yielding => cases version <;> cases freshness <;> rfl

/-- Settles O15: the checks in their order. -/
theorem aClaimRequestIsCheckedAndStartsAClaim : Obligations.AClaimRequestIsCheckedAndStartsAClaim := by
  intro s r h
  have haccepted : s.sc.state = .active → RequestCode.acceptedIn .claim s.sc.state = true := decide_eq_true
  refine ⟨fun hst => State.taken_refused h (mt of_decide_eq_true hst) State.claimTaken,
    fun hst hl => State.taken_accepted h (haccepted hst) (State.atObject_noObject h hl _), fun i e hst hc => ?_⟩
  have hanswer := fun st (ht : s.claimTaken r = s.answer r st) => State.taken_accepted h (haccepted hst) (ht.trans (State.answer_eq h s st))
  refine ⟨fun hr => hanswer _ (State.claimTaken_listen hc hr),
    fun hr ho => hanswer _ (State.claimTaken_already hc hr (.inl ((Ownership.isConsumer_eq_false_iff _).mpr ho))), fun v hr ho => ⟨fun o f hs hb => ?_, fun hs => ?_⟩⟩
  · exact hanswer _ (State.claimTaken_already hc hr (.inr (by rw [hs]; exact (Slot.blocksClaim_inFlight o f).mpr hb)))
  · exact State.taken_accepted h (haccepted hst)
      ((State.claimTaken_starts hc hr (by rw [ho]; rfl) ((Slot.not_blocksClaim_iff _).mpr hs)).trans (State.answer_eq h _ _))

/-- Settles O14: the checks in their order, then the value and the change PUBLISH. -/
theorem writeIsCheckedInOrderThenStoresTheValueAndRequestsAPublish : Obligations.WriteIsCheckedInOrderThenStoresTheValueAndRequestsAPublish := by
  have haccepted : ∀ s : State, s.sc.state = .active → RequestCode.acceptedIn .write s.sc.state = true := fun s => decide_eq_true
  refine ⟨fun s r h => ?checks, fun s r i e h hst hc ho hl => ?effect⟩
  case checks =>
    refine ⟨fun hst => State.taken_refused h (mt of_decide_eq_true hst) State.writeTaken,
      fun hst hl => State.taken_accepted h (haccepted s hst) (State.atObject_noObject h hl _), fun i e hst hc => ?_⟩
    have hanswer := fun st (ht : s.writeTaken r = s.answer r st) => State.taken_accepted h (haccepted s hst) (ht.trans (State.answer_eq h s st))
    exact ⟨fun ho => hanswer _ (State.writeTaken_notOwn hc ho), fun ho hl => hanswer _ (State.writeTaken_long hc ho hl),
      fun ho hl => ⟨_, _, State.taken_accepted h (haccepted s hst) (State.writeTaken_fits hc ho hl), rfl, rfl⟩⟩
  case effect =>
    intro v written change after
    refine State.taken_accepted h (haccepted s hst) ((State.writeTaken_fits hc ho hl).trans ?_)
    have hv : nextVersion e.version = v := by
      show nextVersion e.version = match e.version with | none => 0#8 | some held => held + 1#8
      cases e.version <;> rfl
    have hwritten : { e with value := r.bytes, version := some (nextVersion e.version) } = written := by rw [hv]; rfl
    have he : (s.put i written).entry? i = some written := State.entry?_put_same hc.entry _
    have hslot : written.slot = e.slot := rfl
    have hspacing : written.spacingTimer = e.spacingTimer := rfl
    have hafter : (s.put i written).requestChange i = after := by
      rw [State.requestChange_eq he, State.publishSpaced_eq he, hslot, hspacing]
      simp only [State.put_put, after]
      cases e.slot with
      | none => cases e.spacingTimer <;> rfl
      | waiting _ | owed _ | queued _ => rfl
      | inFlight o f => cases f <;> rfl
    unfold State.writeValue
    dsimp only
    rw [State.modify_eq_put hc.entry, hwritten, hafter, hv, Request.answer_eq h]
    rfl

/-- Settles O16: an owner yields, a claimant cancels, any other refuses. -/
theorem aReleaseYieldsAnOwnEntryAndCancelsAClaim : Obligations.AReleaseYieldsAnOwnEntryAndCancelsAClaim := by
  intro s r h
  have haccepted : s.sc.state = .active → RequestCode.acceptedIn .release s.sc.state = true := decide_eq_true
  refine ⟨fun hst => State.taken_refused h (mt of_decide_eq_true hst) State.releaseTaken,
    fun hst hl => State.taken_accepted h (haccepted hst) (State.atObject_noObject h hl _), fun i e hst hc => ?_⟩
  refine ⟨fun ho => ?own, fun prior changed ho => ?claiming, fun ho => ?other⟩
  case own =>
    refine State.taken_accepted h (haccepted hst) ((State.releaseTaken_own hc ho).trans ((State.answer_eq h _ _).trans ?_))
    rw [State.startYield_eq (State.entry?_put_same hc.entry _)]
    simp only [State.put_put]
    cases e.slot <;> rfl
  case claiming =>
    refine State.taken_accepted h (haccepted hst) ((State.releaseTaken_claiming hc ho).trans ((State.answer_eq h _ _).trans ?_))
    rw [State.cancelClaim_eq hc.entry]
    cases e.slot <;> rfl
  case other =>
    exact State.taken_accepted h (haccepted hst) ((State.releaseTaken_other hc ho).trans (State.answer_eq h s _))

/-- Settles O17: refused unless the entry is a consumer's with a free slot. -/
theorem aQueryRequestAppendsAQueryForAFreeConsumerEntry : Obligations.AQueryRequestAppendsAQueryForAFreeConsumerEntry := by
  intro s r h
  have haccepted : s.sc.state = .active → RequestCode.acceptedIn .query s.sc.state = true := decide_eq_true
  refine ⟨fun hst => State.taken_refused h (mt of_decide_eq_true hst) State.queryTaken,
    fun hst hl => State.taken_accepted h (haccepted hst) (State.atObject_noObject h hl _), fun i e hst hc => ?_⟩
  have hanswer := fun u st (ht : s.queryTaken r = State.answer u r st) => State.taken_accepted h (haccepted hst) (ht.trans (State.answer_eq h u st))
  refine ⟨fun ho => hanswer s _ (State.queryTaken_already hc (.inl ((Ownership.isConsumer_eq_false_iff _).mpr ho))), fun hs => ?_, fun v ho hs => ?_⟩
  · exact hanswer s _ (State.queryTaken_already hc (.inr (Bool.eq_false_iff.mpr (mt (Slot.isNone_iff _).mp hs))))
  · exact hanswer _ _ (State.queryTaken_appends hc (by rw [ho]; rfl) (by rw [hs]; rfl))

/-- Settles O18: BAD_REQUEST for no other station's number, otherwise the row. -/
theorem peerAnswersARowAsItStands : Obligations.PeerAnswersARowAsItStands := by
  intro s r h hload hunconf
  obtain ⟨-, ha, -⟩ := acceptedIn_configured hload hunconf
  refine ⟨fun hbad => State.taken_accepted h ha ((State.peerTaken_bad hbad).trans (State.answer_eq h s _)), fun row hrange hown hrow => ?_⟩
  refine State.taken_accepted h ha ((State.peerTaken_row hrange hown hrow).trans ?_)
  unfold Request.peerResponse epochField
  rw [Request.answer_eq h]
  cases row.epoch <;> rfl

/-- Settles O19: the ring from both its ends. -/
theorem theRingKeepsFourCapturesAndTakeUnlistedReturnsTheOldest : Obligations.TheRingKeepsFourCapturesAndTakeUnlistedReturnsTheOldest := by
  refine ⟨fun s r h => ⟨fun hst => ?refused, fun hload hunconf => ⟨fun hring => ?empty, fun c rest hring hlen => ?oldest⟩⟩,
    fun s t rest hr hpath hring => ?capture⟩
  case refused =>
    refine State.taken_refused h ?_ State.takeUnlistedTaken
    obtain hst | hst := hst <;> rw [hst] <;> decide
  case empty =>
    obtain ⟨-, -, ha⟩ := acceptedIn_configured hload hunconf
    refine State.taken_accepted h ha (Eq.trans ?_ (State.answer_eq h s _))
    unfold State.takeUnlistedTaken
    rw [hring]
  case oldest =>
    obtain ⟨-, -, ha⟩ := acceptedIn_configured hload hunconf
    refine State.taken_accepted h ha (k := State.takeUnlistedTaken) ?_
    unfold State.takeUnlistedTaken Request.unlistedResponse
    rw [hring, Request.answer_eq h]
    dsimp only
    rw [unlistedField_eq hlen]
    rfl
  case capture =>
    intro record
    rw [exec_capture hr hpath, ringAppend_eq hring]

/-- Settles O20: the station's fields, code by code. -/
theorem statusAnswersTheStationAsItStands : Obligations.StatusAnswersTheStationAsItStands := by
  intro s r h stateCode faultCode
  refine State.taken_accepted h rfl (k := fun s r => s.complete (s.statusResponse r)) (congrArg s.complete ?_)
  have hstate : s.sc.state.code.setWidth 8 = stateCode := by
    unfold stateCode
    cases s.sc.state <;> rfl
  have hfault : s.il.fault.code = faultCode := by
    unfold faultCode
    cases s.il.fault <;> rfl
  unfold State.statusResponse epochField
  rw [Request.answer_eq h, hstate, hfault]
  cases s.sc.epoch <;> rfl

end Sys2Proof
end

section
/-! PROOFS. The station's life cycle (R24, R25, R53, R54, R83 to R89, R140, R141, R147 to R158): what each station event does to the station and at an entry,
and from these the statements O21 to O26. -/

namespace Sys2Proof.Machine

-- One proof is elaborated at a time: all that the text still has in flight here would not fit the check's memory limit.
set_option Elab.async false

/-! ## Entering LISTENING -/

/-- A new epoch is never the one before: it lies 1 to 4095 steps beyond it (R84). -/
theorem drawEpoch_ne (old : Option (BitVec 12)) (free : Nat) : old ≠ some (drawEpoch old free) := by
  cases old with
  | none => exact fun h => by cases h
  | some e =>
    intro h
    have hsame : e + 1#12 + BitVec.ofNat 12 (free % 4095) = e := (Option.some.inj h).symm
    have hnat := congrArg BitVec.toNat hsame
    simp only [BitVec.toNat_add, BitVec.toNat_ofNat, Nat.reducePow] at hnat
    have := e.isLt
    omega

theorem State.muteExpired_idle {s : State} (h : s.sc.state ≠ .muted ∨ s.sc.muteTimer ≠ some 0) : s.muteExpired = s := by
  refine if_neg fun ⟨hst, hdue⟩ => ?_
  obtain h | h := h
  · exact h hst
  · exact h (of_decide_eq_true hdue)

theorem State.muteExpired_due {s : State} (hst : s.sc.state = .muted) (ht : s.sc.muteTimer = some 0) :
    s.muteExpired = ({ s with sc := { s.sc with muteTimer := none } }.enterState .listening .muteDone 0#8).beginListening :=
  if_pos ⟨hst, decide_eq_true ht⟩

/-! ## Freshness at station events -/

theorem Freshness.lapsed_eq (f : Freshness) : f.lapsed = if f = .never then .never else .stale := by
  cases f <;> rfl

/-! ## Leaving -/

/-- Outside ACTIVE the takeover logic is at rest (R51). -/
theorem State.takeoverIfOrphaned_inactive {s : State} (h : s.sc.state ≠ .active) (i : Nat) : s.takeoverIfOrphaned i = s := by
  cases he : s.entry? i with
  | none => exact State.withEntry_none he _
  | some e =>
    by_cases ho : ∃ owner k, e.ownership = .consumer (.orphaned owner k)
    · rw [State.takeoverIfOrphaned_orphaned he ho, State.takeoverLogic_idle he (.inl h)]
    · exact State.takeoverIfOrphaned_other he fun owner k hk => ho ⟨owner, k, hk⟩

/-- The leave cancels a claim (R54). -/
theorem State.leaveEntry_claiming {s : State} {i : Nat} {e : Entry} {prior : View} {changed : Bool} (h : s.entry? i = some e)
    (ho : e.ownership = .claiming prior changed) : s.leaveEntry i = s.cancelClaim i := by
  unfold State.leaveEntry
  rw [State.withEntry_some h, ho]

theorem State.leaveEntry_own {s : State} {i : Nat} {e : Entry} (h : s.entry? i = some e) (ho : e.ownership = .own) :
    s.leaveEntry i = s.startYield i none := by
  unfold State.leaveEntry
  rw [State.withEntry_some h, ho]

theorem State.leaveEntry_yielding {s : State} {i : Nat} {e : Entry} (h : s.entry? i = some e) (ho : e.ownership = .yielding) :
    s.leaveEntry i = s := by
  unfold State.leaveEntry
  rw [State.withEntry_some h, ho]

theorem State.leaveEntry_consumer {s : State} {i : Nat} {e : Entry} {v : View} (h : s.entry? i = some e) (ho : e.ownership = .consumer v) :
    s.leaveEntry i = s.put i { e with takeoverTimer := none } := by
  conv => lhs; rw [State.leaveEntry, State.withEntry_some h, ho]
  exact State.modify_eq_put h _

theorem State.slotsClear_iff (s : State) : s.slotsClear = true ↔ ∀ e ∈ s.od.entries, e.slot = .none := by
  simp only [State.slotsClear, List.all_eq_true, Slot.isNone_iff]

/-- The outcome of a PRESENCE in flight: the record is NONE, then LEAVING ends or the follow-up is requested (R89, R153). -/
theorem State.presenceOutcome_inFlight {s : State} {outcome : TxOutcome} {st : PresenceStatus} {follow : Option PresenceStatus}
    (hreport : s.paths.presenceReport = some outcome) (hpresence : s.sc.presence = .inFlight st follow) : s.presenceOutcome =
      if st = .leaving ∧ s.sc.state = .leaving then
        State.leaveDone { s with paths := { s.paths with presenceReport := none }, sc := { s.sc with presence := .none } }
      else match (generalizing := false) follow with
        | none => { s with paths := { s.paths with presenceReport := none }, sc := { s.sc with presence := .none } }
        | some next => State.requestPresence { s with paths := { s.paths with presenceReport := none }, sc := { s.sc with presence := .none } } next := by
  unfold State.presenceOutcome
  rw [hreport]
  dsimp only
  rw [hpresence] <;> rfl

theorem State.Outside.period {s t : State} (h : s.Outside t) : t.sc.period = s.sc.period := by
  have hsame := congrArg (fun c : Sc => c.period) h.sc
  exact hsame

theorem State.Outside.muteInterval {s t : State} (h : s.Outside t) : t.sc.muteInterval = s.sc.muteInterval := by
  have hsame := congrArg (fun c : Sc => c.muteInterval) h.sc
  exact hsame

/-- A posting and a change of the station's fields commute. -/
theorem State.post_setStation (s : State) (k : EventKind) (id : BitVec 12) (tag : Byte) (v : Option Byte) (f : Sc → Sc) :
    { s.post k id tag v with sc := f (s.post k id tag v).sc } = State.post { s with sc := f s.sc } k id tag v := by
  by_cases hq : s.eu.queue.length < 32
  · rw [s.post_room k id tag v hq, State.post_room { s with sc := f s.sc } k id tag v hq]
  · rw [s.post_full k id tag v hq, State.post_full { s with sc := f s.sc } k id tag v hq]

/-! ## What mute, fault and LINE restart do at an entry -/

section Losses

variable {s : State} {i : Nat} {e : Entry} (h : s.entry? i = some e)

include h

theorem State.loseEntry_own (ho : e.ownership = .own) (cause : LossCause) :
    s.loseEntry cause i = (s.put i e.givenUp).postRecords e.givenUp [(.ownershipLost cause, 0#8)] := by
  unfold State.loseEntry
  rw [State.withEntry_some h, ho]
  exact State.modify_postAll h _ _

theorem State.loseEntry_yielding (ho : e.ownership = .yielding) (cause : LossCause) :
    s.loseEntry cause i = (s.put i e.givenUp).postRecords e.givenUp ((.ownershipLost cause, 0#8) :: e.unannounced) := by
  unfold State.loseEntry
  rw [State.withEntry_some h, ho]
  exact State.modify_postAll h _ _

theorem State.loseEntry_claiming {prior : View} {changed : Bool} (ho : e.ownership = .claiming prior changed) (cause : LossCause) :
    s.loseEntry cause i = (s.put i e.stopOwnTimers).returnToPrior i .failed := by
  unfold State.loseEntry
  rw [State.withEntry_some h, ho]
  exact congrArg (·.returnToPrior i .failed) (State.modify_eq_put h _)

theorem State.loseEntry_consumer {v : View} (ho : e.ownership = .consumer v) (cause : LossCause) :
    s.loseEntry cause i = s.put i e.stopOwnTimers := by
  unfold State.loseEntry
  rw [State.withEntry_some h, ho]
  exact State.modify_eq_put h _

/-- The LINE restart at an entry, with the records its ownership state calls for (R24). -/
theorem State.lineRestartEntry_eq : s.lineRestartEntry i = (s.put i e.lineRestarted).postRecords e.lineRestarted (match e.ownership with
    | .own => [(.ownershipLost .restart, 0#8)]
    | .yielding => (.ownershipLost .restart, 0#8) :: e.unannounced
    | .claiming _ _ => [(.claimOutcome .cancelled, e.tag)]
    | .consumer _ => []) := by
  unfold State.lineRestartEntry
  rw [State.withEntry_some h]
  exact State.modify_postAll h _ _

end Losses

/-! ## The join -/

/-- A HOME entry claims at the join unless it sees an owner of rank 0 (R53). -/
def Entry.JoinClaims (e : Entry) : Prop := e.decl.role = .home ∧ ∃ v, e.ownership = .consumer v ∧ ∀ o any, v ≠ .foreign o 0#4 any

/-- A SPARE that takes over waits at the join unless it sees an owner (R53). -/
def Entry.JoinWaits (e : Entry) : Prop :=
  e.decl.role = .spare ∧ e.decl.takeover = true ∧ ∃ v, e.ownership = .consumer v ∧ ∀ o k any, v ≠ .foreign o k any

/-- A consumer entry without a fresh value and with a free slot asks at the join (R69). -/
def Entry.JoinAsks (e : Entry) : Prop := (∃ v, e.ownership = .consumer v) ∧ e.freshness ≠ .fresh ∧ e.slot = .none

/-- A view other than FOREIGN is one without an owner. -/
theorem Ownership.lapsed_of_ne_foreign {v : View} (hv : ∀ o k any, v ≠ .foreign o k any) : (Ownership.consumer v).Lapsed := by
  cases v with
  | unknown => exact .inl rfl
  | orphaned o k => exact .inr ⟨o, k, rfl⟩
  | foreign o k any => exact absurd rfl (hv o k any)

section Join

variable {s : State} {i : Nat} {e : Entry} (h : s.entry? i = some e)

include h

theorem State.joinEntry_lapsed (hl : e.ownership.Lapsed) :
    s.joinEntry i = if e.decl.role = .home then s.startClaim i else if e.decl.takesOver then s.startTakeover i else s := by
  unfold State.joinEntry
  rw [State.withEntry_some h]
  obtain ho | ⟨owner, k, ho⟩ := hl <;> rw [ho]

theorem State.joinEntry_foreign {o : Byte} {k : BitVec 4} {any : Bool} (ho : e.ownership = .consumer (.foreign o k any)) :
    s.joinEntry i = if e.decl.role = .home ∧ k ≠ 0#4 then s.startClaim i else s := by
  unfold State.joinEntry
  rw [State.withEntry_some h, ho]

theorem State.joinEntry_own (ho : ∀ v, e.ownership ≠ .consumer v) : s.joinEntry i = s := by
  unfold State.joinEntry
  rw [State.withEntry_some h]
  cases hown : e.ownership with
  | consumer v => exact absurd hown (ho v)
  | claiming _ _ | own | yielding => rfl

theorem State.joinEntry_claims (hc : e.JoinClaims) : s.joinEntry i = s.startClaim i := by
  obtain ⟨hrole, v, ho, hv⟩ := hc
  by_cases hf : ∃ o k any, v = .foreign o k any
  · obtain ⟨o, k, any, rfl⟩ := hf
    rw [State.joinEntry_foreign h ho]
    exact if_pos ⟨hrole, fun hk => hv o any (by rw [hk])⟩
  · rw [State.joinEntry_lapsed h (ho ▸ Ownership.lapsed_of_ne_foreign fun o k any hk => hf ⟨o, k, any, hk⟩), if_pos hrole]

theorem State.joinEntry_waits (hw : e.JoinWaits) : s.joinEntry i = s.startTakeover i := by
  obtain ⟨hrole, htakeover, v, ho, hv⟩ := hw
  rw [State.joinEntry_lapsed h (ho ▸ Ownership.lapsed_of_ne_foreign hv), if_neg (by rw [hrole]; decide),
    if_pos (e.decl.takesOver_iff.mpr ⟨hrole, htakeover⟩)]

theorem State.joinEntry_idle (hc : ¬ e.JoinClaims) (hw : ¬ e.JoinWaits) : s.joinEntry i = s := by
  cases ho : e.ownership with
  | claiming _ _ | own | yielding => exact State.joinEntry_own h fun v => by rw [ho]; simp
  | consumer v =>
    by_cases hf : ∃ o k any, v = .foreign o k any
    · obtain ⟨o, k, any, rfl⟩ := hf
      rw [State.joinEntry_foreign h ho]
      refine if_neg fun hrank => hc ⟨hrank.1, _, ho, fun o' any' heq => ?_⟩
      exact hrank.2 (View.foreign.inj heq).2.1
    · have hv : ∀ o k any, v ≠ .foreign o k any := fun o k any hk => hf ⟨o, k, any, hk⟩
      rw [State.joinEntry_lapsed h (ho ▸ Ownership.lapsed_of_ne_foreign hv), if_neg fun hrole => hc ⟨hrole, v, ho, fun o any => hv o _ any⟩,
        if_neg fun htakes => ?_]
      obtain ⟨hrole, htakeover⟩ := e.decl.takesOver_iff.mp htakes
      exact hw ⟨hrole, htakeover, v, ho, hv⟩

theorem State.joinQuery_eq [Decidable e.JoinAsks] : s.joinQuery i = if e.JoinAsks then s.append i queryOut else s := by
  unfold State.joinQuery
  rw [State.withEntry_some h]
  refine ite_congr (propext (and_congr ?_ (and_congr_right fun _ => e.slot.isNone_iff))) (fun _ => rfl) fun _ => rfl
  cases e.ownership with
  | consumer v => exact ⟨fun _ => ⟨v, rfl⟩, fun _ => rfl⟩
  | claiming _ _ | own | yielding => exact ⟨nofun, nofun⟩

end Join

theorem State.sweepRow_eq {s : State} {n : Nat} {row : PeerRow} (h : s.rowIs n row) :
    s.sweepRow n = if row.present = false ∧ n ≠ s.ownNumber.toNat then s.giveNotice (BitVec.ofNat 8 n) .absent else s := by
  obtain ⟨hpos, hrow⟩ := h
  obtain ⟨k, rfl⟩ := Nat.exists_eq_add_of_le' hpos
  have hlookup : s.row? (k + 1) = some row := hrow
  unfold State.sweepRow
  rw [hlookup]

end Sys2Proof.Machine

/-! ## The statements -/

namespace Sys2Proof
open Sys2Proof.Machine

/-- Settles O21: JOIN and the end of a mute enter LISTENING with a new epoch. -/
theorem joinAndTheEndOfAMuteEnterListening : Obligations.JoinAndTheEndOfAMuteEnterListening := by
  refine ⟨fun s r h hst => ?_, fun s hr hst ht => ?_, fun s h => State.taken_same (f := State.muteExpired) (State.muteExpired_idle h),
    fun s => ⟨_, drawEpoch_ne s.sc.epoch s.drawn, rfl⟩⟩
  · exact State.taken_accepted h (decide_eq_true hst) (k := State.joinTaken) (State.answer_eq h _ _)
  · exact (State.taken_high hr State.muteExpired).trans (congrArg Host.Outcome.next (State.muteExpired_due hst ht))

/-- Settles O22: the leave from ACTIVE, from LISTENING and MUTED, and at an entry. -/
theorem aLeaveStartsLeavingOrGoesOffTheLine : Obligations.ALeaveStartsLeavingOrGoesOffTheLine := by
  refine ⟨fun s r h hst => ?active, fun s r h hst => ?quiet, fun s i e he => ?entry, fun s => ?offLine⟩
  case active =>
    intro entered
    have ha : RequestCode.acceptedIn .leave s.sc.state = true := by rw [hst]; rfl
    exact State.taken_accepted h ha (k := State.leaveTaken) ((if_pos hst).trans (State.answer_eq h _ _))
  case quiet =>
    intro entered
    have ha : RequestCode.acceptedIn .leave s.sc.state = true := by obtain hst | hst := hst <;> rw [hst] <;> rfl
    have hactive : s.sc.state ≠ .active := by obtain hst | hst := hst <;> rw [hst] <;> decide
    exact State.taken_accepted h ha (k := State.leaveTaken) ((if_neg hactive).trans (State.answer_eq h _ _))
  case entry =>
    intro yielded yieldOutbound
    refine ⟨fun ho => ?_, fun prior changed ho hst => ?_, State.leaveEntry_yielding he, fun v => State.leaveEntry_consumer he⟩
    · rw [State.leaveEntry_own he ho, State.startYield_eq he]
      rfl
    · rw [State.leaveEntry_claiming he ho, State.cancelClaim_eq he]
      have hrest : ((s.withdraw i).returnToPrior i .cancelled).takeoverIfOrphaned i = (s.withdraw i).returnToPrior i .cancelled := by
        refine State.takeoverIfOrphaned_inactive ?_ i
        rw [((State.Outside.withdraw s i).trans (.returnToPrior _ i _)).state, hst]
        decide
      cases e.slot with
      | none | waiting _ | owed _ | queued _ => exact hrest
      | inFlight _ _ => rfl
  case offLine =>
    have hentries : s.od.entries.map Entry.detached = s.od.entries.map fun e => { e with
        freshness := if e.freshness = .never then .never else .stale
        freshTimer := none, refreshTimer := none, spacingTimer := none, windowTimer := none, takeoverTimer := none } :=
      List.map_congr_left fun e _ => by rw [← Freshness.lapsed_eq]; rfl
    rw [← hentries]
    rfl

/-- Settles O23: the notice, the LEAVING PRESENCE and its outcome. -/
theorem leavingEndsWithTheOutcomeOfTheLeavingPresence : Obligations.LeavingEndsWithTheOutcomeOfTheLeavingPresence := by
  refine ⟨fun s => ⟨fun h => ?_, fun h => ?_⟩, fun s hr hst hnotice => ?taken, fun s outcome st follow hr hreport hpresence => ?outcome, fun s => rfl⟩
  · exact if_pos ⟨h.1, h.2.1, s.slotsClear_iff.mpr h.2.2⟩
  · exact if_neg fun hall => h ⟨hall.1, hall.2.1, s.slotsClear_iff.mp hall.2.2⟩
  case taken =>
    exact (State.taken_high hr State.slotsClearTaken).trans (congrArg Host.Outcome.next ((if_pos hnotice).trans (if_pos hst)))
  case outcome =>
    have hexec : exec .presenceOutcome s = .next s.presenceOutcome := State.taken_high hr _
    have hcase := State.presenceOutcome_inFlight hreport hpresence
    refine ⟨fun hst hstate => ?_, fun hother => ?_⟩
    · rw [hexec, hcase, if_pos ⟨hst, hstate⟩]
      rfl
    · intro cleared
      refine hexec.trans (congrArg Host.Outcome.next (hcase.trans ((if_neg fun hboth => hother.elim (· hboth.1) (· hboth.2)).trans ?_)))
      cases follow <;> rfl

/-- Settles O24: the mute, the fault, and what both do at an entry. -/
theorem aMuteAndAFaultGiveUpEveryOwnState : Obligations.AMuteAndAFaultGiveUpEveryOwnState := by
  refine ⟨fun s hr hreport => ⟨fun hst => ?mute, fun hactive hleaving => ?idle⟩, fun s n hr hdup => ⟨fun hst => ?fault, fun hst => ?ignored⟩,
    fun s cause i e he => ?entry⟩
  case mute =>
    intro entered lost
    have hmuted : s.mutedTaken = State.mute { s with paths := { s.paths with mutedReport := false } } := (if_pos hreport).trans (if_pos hst)
    refine (State.taken_high hr State.mutedTaken).trans (congrArg Host.Outcome.next (hmuted.trans ?_))
    have hinterval : lost.sc.muteInterval = s.sc.muteInterval :=
      (State.Outside.loseAll _ .muted).muteInterval.trans (State.Outside.post _ _ _ _ _).muteInterval
    rw [← hinterval]
    rfl
  case idle =>
    exact (State.taken_high hr State.mutedTaken).trans
      (congrArg Host.Outcome.next ((if_pos hreport).trans (if_neg fun h => h.elim hactive hleaving)))
  case fault =>
    intro entered off lost
    have hon : s.sc.state.receiverOn = true := by obtain hst | hst | hst | hst := hst <;> rw [hst] <;> rfl
    have hfaulted : s.duplicateTaken = State.faultStation { s with paths := { s.paths with duplicates := n } } := by
      unfold State.duplicateTaken
      rw [hdup]
      exact if_pos hon
    refine (State.taken_high hr State.duplicateTaken).trans (congrArg Host.Outcome.next (hfaulted.trans ?_))
    have hperiod : lost.sc.period = s.sc.period :=
      (State.Outside.loseAll off.flush .fault).period.trans (State.Outside.post _ _ _ _ _).period
    rw [← hperiod]
    rfl
  case ignored =>
    have hoff : ¬ s.sc.state.receiverOn = true := by obtain hst | hst | hst | hst := hst <;> rw [hst] <;> decide
    refine (State.taken_high hr State.duplicateTaken).trans (congrArg Host.Outcome.next ?_)
    unfold State.duplicateTaken
    rw [hdup]
    exact if_neg hoff
  case entry =>
    intro stopped givenUp
    refine ⟨fun ho => State.loseEntry_own he ho cause, fun ho => ?_, fun prior changed ho => State.loseEntry_claiming he ho cause,
      fun v ho => State.loseEntry_consumer he ho cause⟩
    rw [State.loseEntry_yielding he ho, Entry.unannounced]
    cases e.pendingTag <;> rfl

/-- Settles O25: the LINE restart of the station and at an entry. -/
theorem aLineRestartEntersListeningWithEveryEntryUnknown : Obligations.ALineRestartEntersListeningWithEveryEntryUnknown := by
  refine ⟨fun s r h hf hload hunconf => ?station, fun s i e he => ?entry⟩
  case station =>
    intro entered flushed reset
    have ha : RequestCode.acceptedIn .restart s.sc.state = true := by simp [RequestCode.acceptedIn, hload, hunconf]
    have htaken : exec .restartLine s = .next (s.restartLineTaken r) :=
      (State.taken_high h.1 fun s => s.withRequest .restart fun r => if r.first = 1#8 then s.accepting .restart s.restartLineTaken else s).trans
        (congrArg Host.Outcome.next (((State.withRequest_serves h _).trans (if_pos hf)).trans (State.accepting_serves h ha _)))
    have hentered : { s.enterState .listening .restartLine r.tag with sc := { (s.enterState .listening .restartLine r.tag).sc with
        leaveTag := none, joinTimer := none, presenceTimer := none, muteTimer := none } } = entered :=
      State.post_setStation { s with sc := { s.sc with state := .listening } } _ _ _ _ fun c =>
        { c with leaveTag := none, joinTimer := none, presenceTimer := none, muteTimer := none }
    have hperiod : flushed.sc.period = s.sc.period :=
      (State.Outside.eachEntry State.Outside.lineRestartEntry entered).period.trans (State.Outside.post _ _ _ _ _).period
    have hreset : flushed.clearPeers.resetLine = reset := by
      unfold State.clearPeers State.ownPeriod
      rw [hperiod]
      rfl
    rw [htaken]
    refine congrArg Host.Outcome.next (Eq.trans ?_ (State.answer_eq h _ _))
    rw [← hreset]
    unfold State.restartLineTaken
    dsimp only
    rw [hentered]
  case entry =>
    intro restarted
    have hrestarted : s.put i e.lineRestarted = restarted := by
      unfold Entry.lineRestarted
      rw [Freshness.lapsed_eq]
      rfl
    rw [State.lineRestartEntry_eq he, hrestarted]
    refine ⟨fun v ho => by rw [ho]; rfl, fun prior changed ho => by rw [ho]; rfl, fun ho => by rw [ho]; rfl, fun ho => ?_⟩
    rw [ho, Entry.unannounced]
    cases e.pendingTag <;> rfl

/-- Settles O26: the end of LISTENING, its sweep, the join actions and the presence timer. -/
theorem theEndOfListeningRunsTheJoinActions : Obligations.TheEndOfListeningRunsTheJoinActions := by
  refine ⟨fun s presenceFirst hr hst ht => ?ends, fun s presenceFirst h => ?idle, fun s h => ?presenceIdle, fun s => rfl, fun s => rfl,
    fun s n row hrow => State.sweepRow_eq hrow, fun s i e he => ?entry, fun s hr ht => ?presence⟩
  case ends =>
    intro entered actions presence
    have hentered : State.enterState { s.joinSweep with sc := { s.joinSweep.sc with joinTimer := none } } .active .listenDone 0#8 = entered := by
      have hid : s.joinSweep.ownId = s.ownId := congrArg (BitVec.setWidth 12) (State.Outside.joinSweep s).ownNumber
      unfold entered
      rw [← hid]
      generalize s.joinSweep = u
      rfl
    have hdone : s.joinListenExpired presenceFirst = if presenceFirst then entered.startPresence.joinActions else entered.joinActions.startPresence := by
      rw [← hentered]
      exact if_pos ⟨hst, decide_eq_true ht⟩
    clear_value entered
    refine (State.taken_high hr (·.joinListenExpired presenceFirst)).trans (congrArg Host.Outcome.next (hdone.trans ?_))
    cases presenceFirst <;> rfl
  case idle =>
    refine State.taken_same (f := (·.joinListenExpired presenceFirst)) (if_neg fun hboth => ?_)
    exact h.elim (· hboth.1) (· (of_decide_eq_true hboth.2))
  case presenceIdle => exact State.taken_same (f := State.presenceExpired) (if_neg fun hdue => h (of_decide_eq_true hdue))
  case entry =>
    intro claims waits asks
    classical
    have hquery := State.joinQuery_eq he
    exact ⟨State.joinEntry_claims he, fun hw => (State.joinEntry_waits he hw).trans (State.startTakeover_eq_put he), State.joinEntry_idle he,
      fun hasks => hquery.trans (if_pos hasks), fun hasks => hquery.trans (if_neg hasks)⟩
  case presence =>
    intro restarted
    have hexec : exec .presenceTimerExpiry s = .next s.presenceExpired := State.taken_high hr _
    have hdue : s.presenceExpired = match s.sc.presence with
        | .none => restarted.requestPresence .active
        | .owed _ | .queued _ | .inFlight _ _ => restarted := if_pos (decide_eq_true ht)
    rw [hexec, hdue]
    refine ⟨fun hp => by rw [hp], fun hp => ?_⟩
    cases hpres : s.sc.presence with
    | none => exact absurd hpres hp
    | owed _ | queued _ | inFlight _ _ => rfl

end Sys2Proof
end

section
/-! PROOFS. The Image Loader (R164, R165, R168 to R170, R192): the read of the memory and its link, LOAD, the installation; and from these the statements
O28, O29 and O31. -/

namespace Sys2Proof.Machine

-- One proof is elaborated at a time: all that the text still has in flight here would not fit the check's memory limit.
set_option Elab.async false

/-! ## The read of the memory -/

/-- Part 1 ends with the format and count checks (R164). -/
theorem State.headerRead_reading {s : State} {failed : Nat} (hp : s.il.phase = .reading .header failed) {bytes : List Byte} (hl : bytes.length = 17) :
    s.headerRead bytes = match (s.il.staging.writeAll 0 bytes).headerFault with
      | some f => (s.stage 0 bytes).imageFailed f 0 0#8
      | none => (s.stage 0 bytes).readPhase (.reading .remainder failed) := by
  unfold State.headerRead
  rw [hp]
  exact if_pos hl

/-- Part 2 ends with the validation (R164). -/
theorem State.remainderRead_reading {s : State} {failed : Nat} (hp : s.il.phase = .reading .remainder failed) {bytes : List Byte}
    (hl : bytes.length = 10 * s.il.staging.entryCount + 2) : s.remainderRead bytes = (s.stage 17 bytes).validated 0#8 := by
  unfold State.remainderRead
  rw [hp]
  exact if_pos hl

theorem State.attemptFailed_reading {s : State} {failed : Nat} (hp : s.il.phase = .reading .header failed ∨ s.il.phase = .reading .remainder failed) :
    s.attemptFailed = if failed + 1 < 3 then s.readPhase (.reading (.wait 10) (failed + 1)) else s.imageFailed .noMemory 0 0#8 := by
  unfold State.attemptFailed
  obtain hp | hp := hp <;> rw [hp] <;> rfl

theorem State.attemptWaitExpired_due {s : State} {failed : Nat} (hp : s.il.phase = .reading (.wait 0) failed) :
    s.attemptWaitExpired = s.readPhase (.reading .header failed) := by
  unfold State.attemptWaitExpired
  rw [hp]

/-! ## The link -/

/-- A read of n + 1 bytes acknowledges all but the last (R164). -/
theorem linkRead_succ (address : BitVec 16) (n : Nat) : linkRead address (n + 1) =
    [.start, .device 0x56#7 false, .address (highByte address), .address (lowByte address), .start, .device 0x56#7 true]
      ++ List.replicate n (.data true) ++ [.data false, .stop] := by
  simp [linkRead, linkData, Config.linkDevice]

theorem State.link_part {s : State} (hr : s.rstLow = false) {address : BitVec 16} {count : Nat} (h : s.il.part = some (address, count)) :
    s.link = linkRead address count := by
  unfold State.link
  rw [if_neg (by rw [hr]; exact Bool.false_ne_true), h]

theorem State.link_released {s : State} (h : s.il.part = none) : s.link = [] := by
  unfold State.link
  rw [h, ite_self]

theorem Il.part_header {il : Il} {failed : Nat} (h : il.phase = .reading .header failed) : il.part = some (0#16, 16 + 1) := by
  unfold Il.part
  rw [h]

theorem Il.part_remainder {il : Il} {failed : Nat} (h : il.phase = .reading .remainder failed) :
    il.part = some (17#16, 10 * (il.staging.read 8).toNat + 1 + 1) := by
  unfold Il.part
  rw [h] <;> rfl

theorem Il.part_released {il : Il} (hh : ∀ failed, il.phase ≠ .reading .header failed) (hrem : ∀ failed, il.phase ≠ .reading .remainder failed) :
    il.part = none := by
  unfold Il.part
  split
  next failed h => exact absurd h (hh failed)
  next failed h => exact absurd h (hrem failed)
  all_goals rfl

/-! ## LOAD -/

/-- The command a LOAD is taken by, with and without FINISH (R168). -/
theorem exec_load {s : State} {r : Request} (h : s.serves .load r) :
    exec (if r.first.getLsbD 0 then .loadFinish else .load) s
      = .next (s.accepting .load (if r.first.getLsbD 0 then s.loadFinishTaken else s.loadTaken)) := by
  have hr := h.1
  by_cases hf : r.first.getLsbD 0 = true
  · rw [if_pos hf, if_pos hf]
    exact (State.taken_high hr fun s => s.withRequest .load fun r => if r.finish then s.accepting .load s.loadFinishTaken else s).trans
      (congrArg Host.Outcome.next ((State.withRequest_serves h _).trans (if_pos hf)))
  · rw [if_neg hf, if_neg hf]
    exact (State.taken_high hr fun s => s.withRequest .load fun r => if r.finish then s else s.accepting .load s.loadTaken).trans
      (congrArg Host.Outcome.next ((State.withRequest_serves h _).trans (if_neg hf)))

theorem exec_load_unconfigured {s : State} {r : Request} (h : s.serves .load r) (hst : s.sc.state = .unconfigured) :
    exec (if r.first.getLsbD 0 then .loadFinish else .load) s
      = .next (if r.first.getLsbD 0 then s.loadFinishTaken r else s.loadTaken r) := by
  rw [exec_load h, State.accepting_serves h (decide_eq_true hst)]
  split <;> rfl

/-- A LOAD of length 0 writes nothing (R168). -/
theorem State.loadBytes_eq (s : State) (r : Request) : s.loadBytes r = if r.length = 0#8 then s
    else { s with il := { s.il with staging := s.il.staging.writeAll r.objectId.toNat (r.value.take r.length.toNat) } } := by
  split
  next hzero =>
    unfold State.loadBytes Request.bytes
    rw [hzero]
    rfl
  next => rfl

/-- A refusal answers, with FINISH or without. -/
theorem State.load_refused {s : State} {r : Request} {st : Status} (h : s.serves .load r) (hr : r.loadRefusal = some st) :
    (if r.first.getLsbD 0 then s.loadFinishTaken r else s.loadTaken r) = s.responded (bare 14#8 r.tag st) := by
  have hanswer := State.answer_eq h s st
  split
  · unfold State.loadFinishTaken
    rw [hr]
    exact hanswer
  · unfold State.loadTaken
    rw [hr]
    exact hanswer

theorem Request.loadRefusal_long {r : Request} (h : 32 < r.length.toNat) : r.loadRefusal = some .length := if_pos h

theorem Request.loadRefusal_empty {r : Request} (h : r.length.toNat = 0) (hf : r.first.getLsbD 0 = false) : r.loadRefusal = some .badRequest := by
  unfold Request.loadRefusal Request.finish
  rw [if_neg (by omega), if_pos h, hf]
  rfl

theorem Request.loadRefusal_beyond {r : Request} (h : 1 ≤ r.length.toNat) (h' : r.length.toNat ≤ 32) (hb : 659 < r.objectId.toNat + r.length.toNat) :
    r.loadRefusal = some .length := by
  unfold Request.loadRefusal
  rw [if_neg (by omega), if_neg (by omega)]
  exact if_pos hb

/-- Bytes within the buffer, or none with FINISH, are not refused (R168). -/
theorem Request.loadRefusal_none {r : Request} (h : r.length.toNat ≤ 32)
    (hb : (r.length.toNat = 0 ∧ r.first.getLsbD 0 = true) ∨ (r.length.toNat ≠ 0 ∧ r.objectId.toNat + r.length.toNat ≤ 659)) : r.loadRefusal = none := by
  unfold Request.loadRefusal Request.finish
  rw [if_neg (by omega)]
  obtain ⟨hzero, hf⟩ | ⟨hpos, hfits⟩ := hb
  · rw [if_pos hzero, hf]
    rfl
  · rw [if_neg hpos]
    exact if_neg (Nat.not_lt.mpr hfits)

end Sys2Proof.Machine

/-! ## The statements -/

namespace Sys2Proof
open Sys2Proof.Machine

/-- Settles O28: the two parts of the read, the failed attempts, the link and the buffer. -/
theorem theMemoryReadFillsTheBufferAndGivesUpAfterThreeAttempts : Obligations.TheMemoryReadFillsTheBufferAndGivesUpAfterThreeAttempts := by
  refine ⟨fun s bytes failed hr hp hl => ?header, fun s bytes failed hr hp hl => ?remainder, fun s failed hr hp => ?failed, fun s failed hr hp => ?wait,
    fun s => ?link, fun m at' bytes hm => ⟨m.wf_writeAll bytes at' hm, fun k hk => ?_, fun k hk => ?_⟩⟩
  case header =>
    intro buffer staged
    have hexec : exec (.readHeader bytes) s = .next _ :=
      (State.taken_high hr (·.headerRead bytes)).trans (congrArg Host.Outcome.next (State.headerRead_reading hp hl))
    refine ⟨fun hf => ?_, fun hf hc => ?_, fun hf hc hc' => ?_⟩
    · rw [hexec, Memory.headerFault_badFormat hf]
      rfl
    · rw [hexec, Memory.headerFault_badCount hf hc]
      rfl
    · rw [hexec, Memory.headerFault_none hf ⟨hc, hc'⟩]
      rfl
  case remainder =>
    exact (State.taken_high hr (·.remainderRead bytes)).trans (congrArg Host.Outcome.next (State.remainderRead_reading hp hl))
  case failed =>
    have hexec : exec .attemptFailed s = .next _ := (State.taken_high hr State.attemptFailed).trans (congrArg Host.Outcome.next (State.attemptFailed_reading hp))
    exact ⟨fun hlt => hexec.trans (congrArg Host.Outcome.next (if_pos (by omega))),
      fun hge => hexec.trans (congrArg Host.Outcome.next (if_neg (by omega)))⟩
  case wait =>
    exact (State.taken_high hr State.attemptWaitExpired).trans (congrArg Host.Outcome.next (State.attemptWaitExpired_due hp))
  case link =>
    intro addressed
    refine ⟨fun hr => if_pos hr, fun hr => ⟨fun failed hp => ?_, fun failed hp => ?_, fun hh hrem => State.link_released (Il.part_released hh hrem)⟩⟩
    · exact (State.link_part hr (Il.part_header hp)).trans (linkRead_succ 0#16 16)
    · exact (State.link_part hr (Il.part_remainder hp)).trans (linkRead_succ 17#16 _)
  · rw [Memory.read_writeAll bytes m at' (at' + k) hm, if_pos ⟨Nat.le_add_right at' k, Nat.add_lt_add_left hk at'⟩, Nat.add_sub_cancel_left]
  · rw [Memory.read_writeAll bytes m at' k hm, if_neg (by omega)]

/-- Settles O29: the refusals in their order, the bytes written, and the result of FINISH. -/
theorem loadWritesTheBufferAndFinishJudgesIt : Obligations.LoadWritesTheBufferAndFinishJudgesIt := by
  intro s r h command loaded
  have hloaded : s.loadBytes r = loaded := s.loadBytes_eq r
  refine ⟨fun hst => ?_, fun hst => ?_⟩
  · refine (exec_load h).trans (congrArg Host.Outcome.next ?_)
    exact (State.accepting_eq h _).trans ((if_neg (mt of_decide_eq_true hst)).trans (State.answer_eq h s _))
  · have hexec := exec_load_unconfigured h hst
    have hrefused := fun st (hr : r.loadRefusal = some st) => hexec.trans (congrArg Host.Outcome.next (State.load_refused h hr))
    refine ⟨fun hl => hrefused _ (Request.loadRefusal_long hl), fun hl hf => hrefused _ (Request.loadRefusal_empty hl hf),
      fun hl hl' hb => hrefused _ (Request.loadRefusal_beyond hl hl' hb), fun hl hl' hb hf => ?plain, fun hl hb hf => ?finish⟩
    case plain =>
      have hnone : r.loadRefusal = none := Request.loadRefusal_none hl' (.inr ⟨by omega, hb⟩)
      refine hexec.trans (congrArg Host.Outcome.next ((if_neg (by rw [hf]; exact Bool.false_ne_true)).trans ?_))
      unfold State.loadTaken
      rw [hnone, ← hloaded]
      exact State.answer_eq h _ _
    case finish =>
      have hnone : r.loadRefusal = none := Request.loadRefusal_none hl (by
        by_cases hz : r.length.toNat = 0
        · exact .inl ⟨hz, hf⟩
        · exact .inr ⟨hz, hb.resolve_left hz⟩)
      have htaken : exec command s = .next (s.loadFinishTaken r) := hexec.trans (congrArg Host.Outcome.next (if_pos hf))
      refine ⟨fun im hv => ?_, fun f index hv => ?_⟩
      · refine htaken.trans (congrArg Host.Outcome.next ?_)
        unfold State.loadFinishTaken
        rw [hnone]
        dsimp only
        rw [hloaded, hv]
        exact State.answer_eq h _ _
      · refine htaken.trans (congrArg Host.Outcome.next ?_)
        unfold State.loadFinishTaken Request.imageFault
        rw [hnone]
        dsimp only
        rw [hloaded, hv, Request.answer_eq h]
        rfl

/-- Settles O31: the installation, field by field, and the fault. -/
theorem aValidatedImageIsInstalledAndAFaultLeavesTheStationUnconfigured :
    Obligations.AValidatedImageIsInstalledAndAFaultLeavesTheStationUnconfigured := by
  refine ⟨fun s decls tag => ?installed, fun s f index tag => ⟨fun hv => ?_, rfl⟩⟩
  case installed =>
    intro m im period installed state loaded
    refine ⟨fun hv => ?_, ?_⟩
    · unfold State.validated
      rw [hv]
    · have hjoin : (m.read16 5).toNat = 256 * (m.read 5).toNat + (m.read 6).toNat := m.toNat_read16 5
      have hinstalled : { s.install im with sc := { (s.install im).sc with state := state } } = installed := by
        unfold installed
        rw [← hjoin]
        rfl
      have hloaded : (s.install im).enterState state .imageLoaded tag = loaded := by
        unfold loaded
        rw [← hinstalled]
        rfl
      have hauto : im.autoJoin = (m.read 2).getLsbD 7 := rfl
      unfold State.imageLoaded
      rw [hauto, ← hloaded]
      unfold state
      split <;> rfl
  · unfold State.validated
    rw [hv]

end Sys2Proof
end

section
/-! PROOFS. The Line Controller's transmit side (R110 to R119, R122, R137): the line view, the take, attempts and their ends, the pins; and from these the
statements O32 and O33. -/

namespace Sys2Proof.Machine

-- One proof is elaborated at a time: all that the text still has in flight here would not fit the check's memory limit.
set_option Elab.async false

/-! ## The transmitter -/

/-- TXEN is driven in an attempt and in a jam (R111). -/
theorem TxState.driving_iff (tx : TxState) : tx.driving = true ↔ (∃ h, tx = .transmitting h) ∨ ∃ h, tx = .jamming h := by
  cases tx <;> simp [TxState.driving]

theorem TxState.driving_eq_false {tx : TxState} (ht : ∀ h, tx ≠ .transmitting h) (hj : ∀ h, tx ≠ .jamming h) : tx.driving = false := by
  cases tx with
  | transmitting h => exact absurd rfl (ht h)
  | jamming h => exact absurd rfl (hj h)
  | off | idle | retryWait _ _ | halted => rfl

/-! ## The take -/

/-- The take of an entry's URGENT telegram (R115, R137). -/
theorem State.takeUrgent_queued {s : State} {i : Nat} {e : Entry} {o : Outbound} (he : s.entry? i = some e) (hs : e.slot = .queued o) (rest : List Nat) :
    s.takeUrgent i rest = (({ s with ts := { s.ts with urgent := rest } }.put i { e with slot := .inFlight o .none }).startAttempt
      ⟨e.telegram s.ownNumber o, .urgent, .entry i, 1⟩).offerUrgent := by
  have hrest : State.entry? { s with ts := { s.ts with urgent := rest } } i = some e := (State.entry?_of_entries rfl i).trans he
  unfold State.takeUrgent
  rw [State.withEntry_some he, hs, ← State.setSlot_eq_put hrest]

/-- The take of an entry's ROUTINE telegram (R115, R137). -/
theorem State.takeRoutine_queued {s : State} {i : Nat} {e : Entry} {o : Outbound} (he : s.entry? i = some e) (hs : e.slot = .queued o) (rest : List Ref) :
    s.takeRoutine (.entry i) rest = (({ s with ts := { s.ts with routine := rest } }.put i { e with slot := .inFlight o .none }).startAttempt
      ⟨e.telegram s.ownNumber o, .routine, .entry i, 1⟩).judgeBacklog.offerRoutine := by
  have hrest : State.entry? { s with ts := { s.ts with routine := rest } } i = some e := (State.entry?_of_entries rfl i).trans he
  unfold State.takeRoutine
  dsimp only
  rw [State.withEntry_some he, hs, ← State.setSlot_eq_put hrest]
  rfl

/-- The take of the PRESENCE (R89, R115, R137). -/
theorem State.takeRoutine_presence {s : State} {st : PresenceStatus} (hp : s.sc.presence = .queued st) (rest : List Ref) :
    s.takeRoutine .presence rest = (({ s with ts := { s.ts with routine := rest }, sc := { s.sc with presence := .inFlight st none } }).startAttempt
      ⟨s.presenceTelegram st, .routine, .presence, 1⟩).judgeBacklog.offerRoutine := by
  unfold State.takeRoutine
  dsimp only
  rw [hp]
  rfl

section Take

variable {s : State} (htx : s.lc.tx = .idle) (hview : s.lc.view = some .quiet)

include htx hview

/-- The URGENT head is taken at once (R114). -/
theorem State.take_urgent {i : Nat} {rest : List Nat} (hq : s.ts.urgent = i :: rest) (age : Nat) : s.take age = s.takeUrgent i rest := by
  unfold State.take
  rw [if_pos ⟨htx, hview⟩, hq]

/-- The ROUTINE head is taken after its gap (R113, R114). -/
theorem State.take_routine {r : Ref} {rest : List Ref} (hu : s.ts.urgent = []) (hq : s.ts.routine = r :: rest) (age : Nat) :
    s.take age = if 60 ≤ age then s.takeRoutine r rest else s := by
  unfold State.take
  rw [if_pos ⟨htx, hview⟩, hu, hq]
  rfl

end Take

/-- Nothing is taken on a line that is not quiet, beside a telegram held, or from empty queues. -/
theorem State.take_idle {s : State} (h : s.lc.view ≠ some .quiet ∨ s.lc.tx ≠ .idle ∨ (s.ts.urgent = [] ∧ s.ts.routine = [])) (age : Nat) :
    s.take age = s := by
  unfold State.take
  split
  next hready =>
    obtain hv | ht | ⟨hu, hr⟩ := h
    · exact absurd hready.2 hv
    · exact absurd hready.1 ht
    · rw [hu, hr]
  next => rfl

/-! ## Attempts -/

theorem State.retryAttempt_waiting {s : State} {h : Held} {draw : Nat} (ht : s.lc.tx = .retryWait h draw) (hv : s.lc.view = some .quiet) (age : Nat) :
    s.retryAttempt age = if (classGap h.cls + draw) * 20 ≤ age then s.startAttempt h else s := by
  unfold State.retryAttempt
  rw [ht]
  dsimp only
  rw [hv]
  exact ite_congr (propext (and_iff_right rfl)) (fun _ => rfl) fun _ => rfl

theorem State.retryAttempt_idle {s : State} (h : s.lc.view ≠ some .quiet ∨ ∀ h draw, s.lc.tx ≠ .retryWait h draw) (age : Nat) :
    s.retryAttempt age = s := by
  unfold State.retryAttempt
  split
  next held draw ht =>
    obtain hv | hno := h
    · exact if_neg fun hready => hv hready.1
    · exact absurd ht (hno held draw)
  all_goals rfl

theorem State.sent_idle {s : State} (h : ∀ h, s.lc.tx ≠ .transmitting h) : s.sent = s := by
  unfold State.sent
  split
  next held ht => exact absurd ht (h held)
  all_goals rfl

theorem State.collide_idle {s : State} (h : ∀ h, s.lc.tx ≠ .transmitting h) (bit : Nat) (level : Bool) : s.collide bit level = s := by
  unfold State.collide
  split
  next held ht => exact absurd ht (h held)
  all_goals rfl

theorem State.jamEnd_idle {s : State} (h : ∀ h, s.lc.tx ≠ .jamming h) : s.jamEnd = s := by
  unfold State.jamEnd
  split
  next held ht => exact absurd ht (h held)
  all_goals rfl

theorem State.sent_transmitting {s : State} {h : Held} (ht : s.lc.tx = .transmitting h) :
    s.sent = (({ s with lc := { s.lc with tx := .idle, abandons := 0 } }.report h.ref .sent).bump .txSent).recover := by
  unfold State.sent
  rw [ht]

theorem State.collide_transmitting {s : State} {h : Held} {bit : Nat} {driven : Bool} (ht : s.lc.tx = .transmitting h)
    (hd : h.telegram.levels[bit]? = some driven) (level : Bool) :
    s.collide bit level = if driven = level then s else { s with lc := { s.lc with tx := .jamming h } }.bump .collisions := by
  unfold State.collide
  rw [ht]
  dsimp only
  rw [hd]

theorem State.jamEnd_jamming {s : State} {h : Held} (ht : s.lc.tx = .jamming h) :
    s.jamEnd = if h.attempt < 8 then s.drawBackoff h else s.abandon h := by
  unfold State.jamEnd
  rw [ht]

/-- Neither a report nor an increment touches LC or the station number. -/
theorem State.report_bump_fields (s : State) (r : Ref) (outcome : TxOutcome) (c : Counter) :
    ((s.report r outcome).bump c).lc = s.lc ∧ ((s.report r outcome).bump c).ownId = s.ownId := by
  have hout := State.Outside.bump (s.report r outcome) c
  have hown : ((s.report r outcome).bump c).ownId = (s.report r outcome).ownId := congrArg (BitVec.setWidth 12) hout.ownNumber
  rw [hout.lc, hown]
  cases r <;> exact ⟨rfl, rfl⟩

/-! ## The telegram built at the take -/

theorem flagBits_eq (refresh answer : Bool) :
    flagBits refresh answer false = (if refresh then 1#4 else 0#4) + (if answer then 2#4 else 0#4) := by
  cases refresh <;> cases answer <;> rfl

theorem flagBits_noneHeld (version : Option Byte) : flagBits false false version.isNone = if version = none then 4#4 else 0#4 := by
  cases version with
  | none => rfl
  | some v => simp [flagBits]

/-! ## The pins -/

theorem State.txd_eq {s : State} (hr : s.rstLow = false) (bit : Nat) : s.txd bit = match s.lc.tx with
    | .transmitting h => h.telegram.levels.getD bit true
    | .jamming _ => false
    | .off | .idle | .retryWait _ _ | .halted => true := by
  unfold State.txd
  rw [hr] <;> rfl

end Sys2Proof.Machine

/-! ## The statements -/

namespace Sys2Proof
open Sys2Proof.Machine

/-- Settles O32: the line view and the take of each head. -/
theorem theTakeFreezesTheHeadOfAQueueOnAQuietLine : Obligations.TheTakeFreezesTheHeadOfAQueueOnAQuietLine := by
  have htake : ∀ {s : State} {age : Nat} {t : State}, s.rstLow = false → s.take age = t → exec (.take age) s = .next t :=
    fun {s age t} hr ht => (State.taken_high hr (·.take age)).trans (congrArg Host.Outcome.next ht)
  refine ⟨fun s hr => ?view, fun s age h => State.taken_same (f := (·.take age)) (State.take_idle h age), fun s age i rest e o hr htx hv hq he hs => ?urgent,
    fun s age i rest e o hr htx hv hu hq he hs => ?routine, fun s age rest st hr htx hv hu hq hp => ?presence, fun s h => rfl, fun e own o => ?telegram⟩
  case view =>
    refine ⟨fun hv ht hj => ?_, fun hv ht hj => ?_, fun h => State.taken_same (f := State.lineQuiet) (if_neg ?_),
      fun h => State.taken_same (f := State.lineBusy) (if_neg h)⟩
    · exact (State.taken_high hr State.lineQuiet).trans (congrArg Host.Outcome.next (if_pos ⟨hv, TxState.driving_eq_false ht hj⟩))
    · refine (State.taken_high hr State.lineBusy).trans (congrArg Host.Outcome.next ((if_pos hv).trans ?_))
      rw [TxState.driving_eq_false ht hj]
      rfl
    · rintro ⟨hv, hdriving⟩
      obtain h | h := h
      · exact h hv
      · exact absurd ((TxState.driving_iff _).mpr h) (by rw [hdriving]; exact Bool.false_ne_true)
  case urgent => exact htake hr ((State.take_urgent htx hv hq age).trans (State.takeUrgent_queued he hs rest))
  case routine =>
    have htaken := State.take_routine htx hv hu hq age
    exact ⟨fun hage => htake hr (htaken.trans ((if_pos hage).trans (State.takeRoutine_queued he hs rest))),
      fun hage => htake hr (htaken.trans (if_neg (Nat.not_le.mpr hage)))⟩
  case presence =>
    have htaken := State.take_routine htx hv hu hq age
    exact ⟨fun hage => htake hr (htaken.trans ((if_pos hage).trans (State.takeRoutine_presence hp rest))),
      fun hage => htake hr (htaken.trans (if_neg (Nat.not_le.mpr hage)))⟩
  case telegram =>
    unfold Entry.telegram
    cases o.kind with
    | publish =>
      dsimp only
      rw [flagBits_eq]
      rfl
    | query =>
      dsimp only
      rw [flagBits_noneHeld]
      rfl
    | claim => rfl
    | yield => cases o.successor <;> rfl

/-- Settles O33: the attempts, their ends and the pins. -/
theorem anAttemptIsSentOrCollidesAndIsRetriedOrAbandoned : Obligations.AnAttemptIsSentOrCollidesAndIsRetriedOrAbandoned := by
  refine ⟨fun s age draw h hr ht hv => ?retry, fun s age h => State.taken_same (f := (·.retryAttempt age)) (State.retryAttempt_idle h age),
    fun s => ⟨fun h => ⟨State.taken_same (f := State.sent) (State.sent_idle h), fun bit level => State.taken_same (f := (·.collide bit level)) (State.collide_idle h bit level)⟩,
      fun h => State.taken_same (f := State.jamEnd) (State.jamEnd_idle h)⟩,
    fun s h hr ht => ?sent, fun s h bit driven level hr ht hd => ?collision, fun s h hr ht hlt => ?backoff, fun s h hr ht hge => ?abandon,
    fun s outcome => ⟨fun i => rfl, rfl⟩, fun s hr => ?pins⟩
  case retry =>
    intro slots
    have hslots : slots = classGap h.cls + draw := by
      unfold slots classGap
      cases h.cls <;> rfl
    have hexec := (State.taken_high hr (·.retryAttempt age)).trans (congrArg Host.Outcome.next (State.retryAttempt_waiting ht hv age))
    rw [← hslots, Nat.mul_comm] at hexec
    exact ⟨fun hage => hexec.trans (congrArg Host.Outcome.next (if_pos hage)),
      fun hage => hexec.trans (congrArg Host.Outcome.next (if_neg (Nat.not_le.mpr hage)))⟩
  case sent =>
    intro counted
    obtain ⟨hlc, hid⟩ := State.report_bump_fields { s with lc := { s.lc with tx := .idle, abandons := 0 } } h.ref .sent .txSent
    refine (State.taken_high hr State.sent).trans (congrArg Host.Outcome.next ((State.sent_transmitting ht).trans ?_))
    have hrecovery : counted.lc.recovery = s.lc.recovery := (congrArg Lc.recovery hlc :)
    have hown : counted.ownId = s.ownId := hid
    rw [← hrecovery, ← hown]
    rfl
  case collision =>
    exact (State.taken_high hr (·.collide bit level)).trans (congrArg Host.Outcome.next (State.collide_transmitting ht hd level))
  case backoff =>
    exact ⟨_, Nat.mod_lt _ (Nat.two_pow_pos _),
      (State.taken_high hr State.jamEnd).trans (congrArg Host.Outcome.next ((State.jamEnd_jamming ht).trans (if_pos hlt)))⟩
  case abandon =>
    intro counted
    obtain ⟨-, hid⟩ := State.report_bump_fields { s with lc := { s.lc with tx := .idle, abandons := s.lc.abandons + 1 } } h.ref .abandoned .abandoned
    have hexec := (State.taken_high hr State.jamEnd).trans
      (congrArg Host.Outcome.next ((State.jamEnd_jamming ht).trans (if_neg (Nat.not_lt.mpr hge))))
    refine ⟨fun hlt => hexec.trans (congrArg Host.Outcome.next (if_pos (Nat.succ_lt_succ hlt))), fun hge => ?_⟩
    intro muted
    refine hexec.trans (congrArg Host.Outcome.next ((if_neg (Nat.not_lt.mpr (Nat.succ_le_succ hge))).trans ?_))
    have hown : counted.ownId = s.ownId := hid
    unfold muted
    rw [← hown]
    rfl
  case pins =>
    refine ⟨?_, fun h bit level ht hd => ?_, fun h bit ht => ?_, fun ht hj bit => ?_⟩
    · rw [State.txen, hr]
      exact TxState.driving_iff s.lc.tx
    · rw [State.txd_eq hr, ht]
      show h.telegram.levels.getD bit true = level
      rw [List.getD_eq_getElem?_getD, hd]
      rfl
    · rw [State.txd_eq hr, ht]
    · rw [State.txd_eq hr]
      cases htx : s.lc.tx with
      | transmitting h => exact absurd htx (ht h)
      | jamming h => exact absurd htx (hj h)
      | off | idle | retryWait _ _ | halted => rfl

end Sys2Proof
end

section
/-! PROOFS. The Line Controller's receive side (R110, R120, R121, R202): a reception by its framing, the bytes of a telegram taken apart again; and from
these the statements O34 and O35. -/

namespace Sys2Proof.Machine

-- One proof is elaborated at a time: all that the text still has in flight here would not fit the check's memory limit.
set_option Elab.async false

/-! ## A reception by its framing -/

section Reception

variable {s : State} {levels : List Bool} (hr : s.rstLow = false) (hview : s.lc.view.isSome = true) (hreceiving : s.lc.receiving = true)

include hr hview hreceiving

theorem exec_reception_ended {bytes : List Byte} (h : levels.foldl Framing.bit (.due 0 []) = .ended bytes) :
    exec (.reception (startSequence ++ levels)) s
      = .next ({ s with lc := { s.lc with receiving := false, view := some .quiet } }.receivedBytes bytes) := by
  refine (State.taken_high hr (·.reception (startSequence ++ levels))).trans (congrArg Host.Outcome.next ((if_pos ⟨hview, hreceiving⟩).trans ?_))
  rw [Framing.afterStart, h]

theorem exec_reception_failed (h : levels.foldl Framing.bit (.due 0 []) = .failed) :
    exec (.reception (startSequence ++ levels)) s = .next ({ s with lc := { s.lc with receiving := false } }.bump .rxBad) := by
  refine (State.taken_high hr (·.reception (startSequence ++ levels))).trans (congrArg Host.Outcome.next ((if_pos ⟨hview, hreceiving⟩).trans ?_))
  rw [Framing.afterStart, h]

end Reception

/-! ## Framings that end -/

/-- Bytes sent in a row, then twelve bit times at 1, end with these bytes (R120). -/
theorem Framing.bytes_ended {bytes : List Byte} (h : bytes.length ≤ 263) :
    (bytesLevels bytes ++ List.replicate 12 true).foldl Framing.bit (.due 0 []) = .ended bytes := by
  rw [List.foldl_append, Framing.bytes bytes [] (by simpa using h)]
  exact Framing.ended12 bytes

/-- A gap of 1 to 11 bit times between bytes fails the reception (R120). -/
theorem Framing.gap_failed {bytes : List Byte} (h : bytes.length ≤ 263) {k : Nat} (hk : 1 ≤ k) (hk' : k ≤ 11) :
    (bytesLevels bytes ++ List.replicate k true ++ [false]).foldl Framing.bit (.due 0 []) = .failed := by
  rw [List.foldl_append, List.foldl_append, Framing.bytes bytes [] (by simpa using h), Framing.ones k 0 _ (by omega)]
  exact if_neg (by omega)

/-- A data bit is read while fewer than eight are. -/
theorem Framing.data_step {got : Nat} (h : got < 8) (byte : Byte) (bytes : List Byte) (level : Bool) :
    ∃ byte', Framing.bit (.data got byte bytes) level = .data (got + 1) byte' bytes := by
  unfold Framing.bit
  exact ⟨_, if_pos h⟩

/-- Data bits up to the eighth are read whatever their levels. -/
theorem Framing.data_read (bytes : List Byte) : ∀ (bits : List Bool) (got : Nat) (byte : Byte), got + bits.length ≤ 8 →
    ∃ byte', bits.foldl Framing.bit (.data got byte bytes) = .data (got + bits.length) byte' bytes
  | [], got, byte, _ => ⟨byte, rfl⟩
  | level :: bits, got, byte, h => by
    rw [List.length_cons] at h
    obtain ⟨next, hnext⟩ := Framing.data_step (by omega : got < 8) byte bytes level
    obtain ⟨byte', hread⟩ := Framing.data_read bytes bits (got + 1) next (by omega)
    refine ⟨byte', ?_⟩
    rw [List.foldl_cons, hnext, hread, List.length_cons, Nat.add_right_comm, Nat.add_assoc]

/-- A start bit begins a byte while a place is left for it. -/
theorem Framing.start_step (bytes : List Byte) :
    Framing.bit (.due 0 bytes) false = if bytes.length < 263 then .data 0 0#8 bytes else .failed := by
  simp only [Framing.bit, if_true]

/-- A stop bit at 0 fails the reception (R120). -/
theorem Framing.stop_failed {bytes : List Byte} (h : bytes.length < 263) {bits : List Bool} (hd : bits.length = 8) :
    (bytesLevels bytes ++ [false] ++ bits ++ [false]).foldl Framing.bit (.due 0 []) = .failed := by
  obtain ⟨byte, hread⟩ := Framing.data_read bytes bits 0 0#8 (by omega)
  rw [List.foldl_append, List.foldl_append, List.foldl_append, Framing.bytes bytes [] (by simpa using Nat.le_of_lt h), List.nil_append]
  simp only [List.foldl_cons, List.foldl_nil, Framing.start_step, if_pos h, hread, hd]
  rfl

/-- A start bit after 263 bytes fails the reception (R120). -/
theorem Framing.limit_failed {bytes : List Byte} (h : bytes.length = 263) :
    (bytesLevels bytes ++ [false]).foldl Framing.bit (.due 0 []) = .failed := by
  rw [List.foldl_append, Framing.bytes bytes [] (by simp [h]), List.nil_append]
  exact (Framing.start_step bytes).trans (if_neg (by omega))

/-! ## The bytes of a telegram -/

theorem highByte_append_lowByte (w : BitVec 16) : highByte w ++ lowByte w = w := BitVec.extractLsb'_append_extractLsb'

theorem nibbles_append (a b : BitVec 4) : (a ++ b).extractLsb' 4 4 = a ∧ (a ++ b).extractLsb' 0 4 = b :=
  ⟨BitVec.extractLsb'_append_eq_left, (BitVec.extractLsb'_append_eq_of_add_le (Nat.le_refl 4)).trans BitVec.extractLsb'_eq_self⟩

theorem objectId_append (id : BitVec 12) (rank : BitVec 4) : id.extractLsb' 4 8 ++ (id.extractLsb' 0 4 ++ rank).extractLsb' 4 4 = id := by
  rw [(nibbles_append _ _).1]
  exact BitVec.extractLsb'_append_extractLsb'

theorem Telegram.length_body (t : Telegram) : t.body.length = 6 + t.payload.length := by
  rw [Telegram.body, List.length_append]
  rfl

theorem Telegram.length_bytes (t : Telegram) : t.bytes.length = 8 + t.payload.length := by
  rw [Telegram.bytes, List.length_append, Telegram.length_body]
  simp only [List.length_cons, List.length_nil]
  omega

/-- A telegram whose length field counts its payload is framed (R120). -/
theorem Telegram.framed_bytes {t : Telegram} (h : t.payload.length = t.length.toNat) : framed t.bytes = true := by
  refine decide_eq_true ⟨?_, ?_⟩
  · rw [t.length_bytes]
    omega
  · rw [t.length_bytes, h]
    rfl

/-- Its check is good (R121). -/
theorem Telegram.checkGood_bytes (t : Telegram) : checkGood t.bytes = true := by
  have hlen : t.bytes.length - 2 = t.body.length := by
    rw [t.length_bytes, t.length_body]
    omega
  unfold checkGood
  dsimp only
  rw [hlen]
  refine decide_eq_true ?_
  simp only [Telegram.bytes, List.take_left, List.getD_eq_getElem?_getD]
  simp [highByte_append_lowByte]

/-- Its bytes give it back, the payload kept up to 32 bytes (R202). -/
theorem Telegram.ofBytes_bytes (t : Telegram) : Telegram.ofBytes t.bytes = { t with payload := t.payload.take 32 } := by
  have hpayload : (t.bytes.drop 6).take (t.bytes.length - 8) = t.payload := by
    rw [t.length_bytes, Nat.add_sub_cancel_left]
    exact List.take_left
  unfold Telegram.ofBytes
  rw [hpayload]
  obtain ⟨hkind, hflags⟩ := nibbles_append t.kind t.flags
  obtain ⟨-, hrank⟩ := nibbles_append (t.objectId.extractLsb' 0 4) t.rank
  have hid := objectId_append t.objectId t.rank
  show Telegram.mk ((t.kind ++ t.flags).extractLsb' 4 4) ((t.kind ++ t.flags).extractLsb' 0 4) t.source
    (t.objectId.extractLsb' 4 8 ++ (t.objectId.extractLsb' 0 4 ++ t.rank).extractLsb' 4 4) ((t.objectId.extractLsb' 0 4 ++ t.rank).extractLsb' 0 4)
    t.version t.length (t.payload.take 32) = _
  rw [hkind, hflags, hid, hrank]

/-- A reception's bytes by the two checks. -/
theorem framed_checkGood_iff (bytes : List Byte) : (framed bytes && checkGood bytes) = true ↔
    8 ≤ bytes.length ∧ bytes.length = 8 + (bytes.getD 5 0#8).toNat
      ∧ crc16 (bytes.take (bytes.length - 2)) = bytes.getD (bytes.length - 2) 0#8 ++ bytes.getD (bytes.length - 1) 0#8 := by
  simp only [framed, checkGood, Bool.and_eq_true, decide_eq_true_eq]
  rw [and_assoc]
  refine and_congr_right fun h8 => and_congr_right fun _ => ?_
  rw [show bytes.length - 2 + 1 = bytes.length - 1 by omega]

end Sys2Proof.Machine

/-! ## The statements -/

namespace Sys2Proof
open Sys2Proof.Machine

/-- Settles O34: the levels are read back as the bytes, and the bytes as the telegram. -/
theorem aTelegramOnTheLineIsDeliveredAsItWasSent : Obligations.ATelegramOnTheLineIsDeliveredAsItWasSent := by
  refine ⟨fun s t hr hview hreceiving hlen => ?received, fun t => ?levels⟩
  case received =>
    have hbytes : t.bytes.length ≤ 263 := by
      rw [t.length_bytes, hlen]
      have := t.length.isLt
      omega
    have hlevels : t.levels ++ List.replicate 12 true = startSequence ++ (bytesLevels t.bytes ++ List.replicate 12 true) := List.append_assoc _ _ _
    rw [hlevels, exec_reception_ended hr hview hreceiving (Framing.bytes_ended hbytes)]
    unfold State.receivedBytes
    rw [Telegram.framed_bytes hlen, Telegram.checkGood_bytes, Telegram.ofBytes_bytes]
    rfl
  case levels =>
    intro body
    have hcrc := crc16_serial t.body
    unfold Telegram.levels Telegram.bytes
    rw [bytesLevels_eq_flatMap, hcrc]
    rfl

/-- Settles O35: the ends of a reception, each by its framing. -/
theorem aReceptionIsDeliveredOrCountedBad : Obligations.AReceptionIsDeliveredOrCountedBad := by
  intro s bytes hr hview hreceiving hlen crc sent failed ended size good
  have hsent : sent = startSequence ++ bytesLevels bytes := by rw [bytesLevels_eq_flatMap]; rfl
  have hgood : (framed bytes && checkGood bytes) = true ↔ good := by
    rw [framed_checkGood_iff, crc16_serial]
    rfl
  have hended : exec (.reception (sent ++ List.replicate 12 true)) s = .next (ended.receivedBytes bytes) := by
    rw [hsent, List.append_assoc]
    exact exec_reception_ended hr hview hreceiving (Framing.bytes_ended hlen)
  refine ⟨fun h => hended.trans (congrArg Host.Outcome.next (if_pos (hgood.mpr h))),
    fun h => hended.trans (congrArg Host.Outcome.next (if_neg (mt hgood.mp h))), fun k hk hk' => ?_, fun data hd hsize => ?_, fun hsize => ?_⟩
  · rw [hsent, List.append_assoc, List.append_assoc, ← List.append_assoc (bytesLevels bytes)]
    exact exec_reception_failed hr hview hreceiving (Framing.gap_failed hlen hk hk')
  · have hlevels : sent ++ [false] ++ data ++ [false] = startSequence ++ (bytesLevels bytes ++ [false] ++ data ++ [false]) := by
      rw [hsent]
      simp only [List.append_assoc]
    rw [hlevels]
    exact exec_reception_failed hr hview hreceiving (Framing.stop_failed hsize hd)
  · rw [hsent, List.append_assoc]
    exact exec_reception_failed hr hview hreceiving (Framing.limit_failed hsize)

end Sys2Proof
end

section
/-! PROOFS. The Peer Monitor (R77 to R82): what a heard telegram does at the row of its source, and a row's silence; and from these the statement O37. -/

namespace Sys2Proof.Machine

-- One proof is elaborated at a time: all that the text still has in flight here would not fit the check's memory limit.
set_option Elab.async false

/-! ## Rows -/

theorem State.row?_of_rowIs {s : State} {n : Nat} {row : PeerRow} (h : s.rowIs n row) : s.row? n = some row := by
  obtain ⟨hpos, hrow⟩ := h
  obtain ⟨k, rfl⟩ := Nat.exists_eq_add_of_le' hpos
  exact hrow

theorem State.setRow_eq_putRow (s : State) {n : Nat} (h : 1 ≤ n) (row : PeerRow) : s.setRow n row = s.putRow n row := by
  obtain ⟨k, rfl⟩ := Nat.exists_eq_add_of_le' h
  rfl

theorem Telegram.isPresence_iff (t : Telegram) : t.isPresence = true ↔ t.kind.toNat = 5 :=
  decide_eq_true_iff.trans ((t.kindOf_eq_some_iff .presence).trans BitVec.toNat_inj.symm)

/-- The LEAVING status of a PRESENCE (R99). -/
theorem rank_leaving_iff (rank : BitVec 4) : rank = PresenceStatus.leaving.code ↔ rank.toNat = 3 := BitVec.toNat_inj.symm

/-! ## A heard telegram -/

/-- PM takes the oldest heard telegram at the row of its source (R102). -/
theorem State.takeHeard_fits {s : State} {t : Telegram} {rest : List Telegram} {row : PeerRow} (hpath : s.paths.toPm = t :: rest)
    (hrow : s.rowIs t.source.toNat row) {fits : Telegram → Bool} (hf : fits t = true) (k : State → PeerRow → Telegram → State) :
    s.takeHeard fits k = k { s with paths := { s.paths with toPm := rest } } row t := by
  have hlookup : State.row? { s with paths := { s.paths with toPm := rest } } t.source.toNat = some row := State.row?_of_rowIs (s := s) hrow
  unfold State.takeHeard
  rw [hpath]
  dsimp only
  rw [if_pos hf, hlookup]

/-- A posting leaves the notices given alone. -/
theorem State.post_notices (s : State) (k : EventKind) (id : BitVec 12) (tag : Byte) (v : Option Byte) :
    (s.post k id tag v).paths.notices = s.paths.notices := congrArg Paths.notices (State.Outside.post s k id tag v).paths

end Sys2Proof.Machine

/-! ## The statement -/

namespace Sys2Proof
open Sys2Proof.Machine

/-- Settles O37: a heard telegram by its kind and status, and the silence of a row. -/
theorem aPeerRowFollowsWhatIsHeardAndItsSilence : Obligations.APeerRowFollowsWhatIsHeardAndItsSilence := by
  refine ⟨fun s t rest row hr hpath hrow => ?heard, fun s n row hr hn hrow hpresent hdeadline => ?silence, fun s n h => ?idle⟩
  case heard =>
    intro taken n id period
    have hset : ∀ row', taken.setRow n row' = taken.putRow n row' := fun row' => taken.setRow_eq_putRow hrow.1 row'
    have hperiod : t.period = period := Nat.mul_comm _ _
    refine ⟨fun hk hk' => ?other, fun hk hrank => ?present, fun hk hrank => ?leaving⟩
    case other =>
      intro marked
      have hnot : (!t.isPresence) = true := by
        rw [Bool.not_eq_true', Bool.eq_false_iff]
        exact mt t.isPresence_iff.mp (by omega)
      refine (State.taken_high hr State.heard).trans (congrArg Host.Outcome.next ((State.takeHeard_fits hpath hrow hnot _).trans ?_))
      dsimp only
      rw [hset]
      rfl
    case present =>
      intro marked joined
      have hfits : (t.isPresence && decide (t.rank ≠ PresenceStatus.leaving.code)) = true :=
        Bool.and_eq_true_iff.mpr ⟨t.isPresence_iff.mpr hk, decide_eq_true (mt (rank_leaving_iff _).mp hrank)⟩
      have hmarked : taken.setRow n ⟨true, some t.objectId, t.period, some (3 * t.period)⟩ = marked := by rw [hset, hperiod]
      have hexec : exec .presenceHeard s = .next (match row.epoch with
          | none => joined
          | some old => if old = t.objectId then joined else (joined.postPeer .restarted t.source).giveNotice t.source .restarted) := by
        refine (State.taken_high hr State.presenceHeard).trans (congrArg Host.Outcome.next ((State.takeHeard_fits hpath hrow hfits _).trans ?_))
        dsimp only
        rw [hmarked]
        rfl
      have hnotices : joined.paths.notices = s.paths.notices := by
        unfold joined
        split
        · rfl
        · exact State.post_notices marked _ _ _ _
      refine ⟨fun hepoch => ?_, fun old hold hne => ?_⟩
      · rw [hexec]
        obtain hepoch | hepoch := hepoch
        · rw [hepoch]
        · rw [hepoch]
          exact congrArg Host.Outcome.next (if_pos rfl)
      · intro restarted
        have hrestarted : restarted.paths.notices = s.paths.notices := (State.post_notices joined _ _ _ _).trans hnotices
        rw [hexec, hold, ← hrestarted]
        exact congrArg Host.Outcome.next (if_neg hne)
    case leaving =>
      intro left
      have hfits : (t.isPresence && decide (t.rank = PresenceStatus.leaving.code)) = true :=
        Bool.and_eq_true_iff.mpr ⟨t.isPresence_iff.mpr hk, decide_eq_true ((rank_leaving_iff _).mpr hrank)⟩
      have hnotices : left.paths.notices = s.paths.notices := State.post_notices _ _ _ _ _
      refine (State.taken_high hr State.leavingHeard).trans (congrArg Host.Outcome.next ((State.takeHeard_fits hpath hrow hfits _).trans ?_))
      dsimp only
      rw [hset, hperiod, ← hnotices]
      rfl
  case silence =>
    intro absent
    have hnotices : absent.paths.notices = s.paths.notices := State.post_notices _ _ _ _ _
    have hdue : s.silenceExpired n = absent.giveNotice (BitVec.ofNat 8 n) .absent := by
      unfold State.silenceExpired
      rw [State.row?_of_rowIs hrow]
      dsimp only
      rw [if_pos ⟨hpresent, decide_eq_true hdeadline⟩, s.setRow_eq_putRow hrow.1]
    rw [← hnotices]
    exact (State.taken_high hr (·.silenceExpired n)).trans (congrArg Host.Outcome.next hdue)
  case idle =>
    refine State.taken_same (f := (·.silenceExpired n)) ?_
    cases n with
    | zero => rfl
    | succ k =>
      unfold State.silenceExpired
      cases hrow : s.row? (k + 1) with
      | none => rfl
      | some row =>
        refine if_neg fun ⟨hpresent, hdue⟩ => ?_
        obtain hno | hno := h row ⟨Nat.le_add_left 1 k, hrow⟩
        · rw [hpresent] at hno
          cases hno
        · exact hno (of_decide_eq_true hdue)

end Sys2Proof
end

section
/-! PROOFS. A PUBLISH at the entry it reaches (R9, R15, R16, R19, R20, R33, R40, R41, R47): the acceptance and the refusal of a value, the change of
owner, the loss of a claimant and of an owner, and from these the statements O39, O40 and O41. -/

namespace Sys2Proof.Machine

-- One proof is elaborated at a time: all that the text still has in flight here would not fit the check's memory limit.
set_option Elab.async false

/-! ## The version order -/

/-- The version order, read from the difference of the two versions modulo 256 (R9). -/
theorem versionOrder_eq (offered held : Byte) : versionOrder offered held =
    if (offered.toNat + 256 - held.toNat) % 256 = 0 then .same
    else if (offered.toNat + 256 - held.toNat) % 256 ≤ 127 then .newer else .older := by
  have hd : (offered - held).toNat = (offered.toNat + 256 - held.toNat) % 256 := by
    rw [BitVec.toNat_sub]
    have := held.isLt
    omega
  unfold versionOrder
  rw [hd]

/-! ## The acceptance of a value -/

/-- A QUERY that waits in a queue or on an owed list. -/
def Slot.Asks (slot : Slot) : Prop := ∃ o : Outbound, o.kind = .query ∧ (slot = .queued o ∨ slot = .owed o)

section Entry

variable {s : State} {i : Nat} {e : Entry} (h : s.entry? i = some e)

include h

/-- A QUERY that waits is withdrawn (R16, R71). -/
theorem State.withdrawQuery_asks (ha : e.slot.Asks) : s.withdrawQuery i = s.withdraw i := by
  obtain ⟨o, hk, hs⟩ := ha
  unfold State.withdrawQuery
  rw [State.withEntry_some h]
  obtain hs | hs := hs <;> rw [hs] <;> exact if_pos hk

/-- Every other telegram stands (R16, R71). -/
theorem State.withdrawQuery_other (ha : ¬ e.slot.Asks) : s.withdrawQuery i = s := by
  unfold State.withdrawQuery
  rw [State.withEntry_some h]
  split
  next o hs => exact if_neg fun hk => ha ⟨o, hk, .inl hs⟩
  next o hs => exact if_neg fun hk => ha ⟨o, hk, .inr hs⟩
  all_goals rfl

theorem State.exists_entry?_withdrawQuery : ∃ slot, (s.withdrawQuery i).entry? i = some { e with slot := slot } := by
  by_cases ha : e.slot.Asks
  · rw [State.withdrawQuery_asks h ha]
    exact ⟨_, State.entry?_withdraw_same h⟩
  · rw [State.withdrawQuery_other h ha]
    exact ⟨e.slot, h⟩

end Entry

/-- The entry that has taken a value (R16, R74). -/
def Entry.accepted (e : Entry) (t : Telegram) : Entry :=
  { e with ownership := .consumer (.foreign t.source t.rank false), version := some t.version, value := t.payload, freshness := .fresh,
           freshTimer := some e.decl.limit }

/-- The data records of an acceptance: FRESH where the entry was STALE, and ARRIVAL (R19, R74). -/
def Entry.dataRecords (e : Entry) (sameRefresh : Bool) : List (EventKind × Byte) :=
  (if e.freshness = .stale ∧ e.decl.notify ≠ .none then [(.fresh, 0#8)] else [])
    ++ (if e.decl.notify.arrives sameRefresh then [(.arrival, 0#8)] else [])

theorem Notify.arrives_iff (n : Notify) (sameRefresh : Bool) :
    n.arrives sameRefresh = true ↔ n = .every ∨ (n = .change ∧ sameRefresh = false) := by
  cases n <;> simp [Notify.arrives]

/-- An acceptance: the entry with its value, a QUERY that waits withdrawn, the records with the new version (R16, R19, R28, R74). -/
theorem State.acceptValue_eq {s : State} {i : Nat} {e : Entry} (h : s.entry? i = some e) (t : Telegram) (sameRefresh : Bool)
    (before : List (EventKind × Byte)) : s.acceptValue i t sameRefresh before =
      ((s.put i (e.accepted t)).withdrawQuery i).postRecords (e.accepted t) (before ++ e.dataRecords sameRefresh) := by
  obtain ⟨slot, hq⟩ := State.exists_entry?_withdrawQuery (State.entry?_put_same h (e.accepted t))
  unfold State.acceptValue
  rw [State.withEntry_some h, State.modify_eq_put h, List.append_assoc]
  exact State.postAll_eq hq _

/-- A refusal for the length: the ownership records, the REFUSED counter, VALUE_REFUSED with the version offered (R20). -/
theorem State.refuseValue_eq {s : State} {i : Nat} {e : Entry} (h : s.entry? i = some e) (t : Telegram) (before : List (EventKind × Byte)) :
    s.refuseValue i t before =
      ((s.postRecords e before).bump .refused).post .valueRefused e.decl.objectId 0#8 (some t.version) := by
  unfold State.refuseValue
  rw [State.withEntry_some h, State.postAll_eq h]

/-! ## The change of owner -/

section Entry

variable {s : State} {i : Nat} {e : Entry} (h : s.entry? i = some e)

include h

/-- A new owner's value that fits is taken at any version (R14, R15). -/
theorem State.adoptOwner_fits {t : Telegram} (hl : t.length.toNat ≤ e.decl.maxLength) (deadline : Timer) (before : List (EventKind × Byte)) :
    s.adoptOwner i t deadline before = s.acceptValue i t false (before ++ [(.ownerChanged .newOwner, 0#8)]) := by
  unfold State.adoptOwner
  rw [State.withEntry_some h]
  exact if_neg (Nat.not_lt.mpr hl)

/-- A new owner is recorded where its value is refused, too, with the mark that any version is taken (R15, R20). -/
theorem State.adoptOwner_refuses {t : Telegram} (hl : ¬ t.length.toNat ≤ e.decl.maxLength) (deadline : Timer)
    (before : List (EventKind × Byte)) : s.adoptOwner i t deadline before =
      (s.put i { e with ownership := .consumer (.foreign t.source t.rank true), freshTimer := deadline }).refuseValue i t
        (before ++ [(.ownerChanged .newOwner, 0#8)]) := by
  unfold State.adoptOwner
  rw [State.withEntry_some h, State.modify_eq_put h]
  exact if_pos (Nat.not_le.mp hl)

/-! ## A PUBLISH from the recorded owner -/

theorem State.takeFromOwner_refuses {t : Telegram} (hl : ¬ t.length.toNat ≤ e.decl.maxLength) (anyVersion : Bool) :
    s.takeFromOwner i t anyVersion =
      (s.put i { e with ownership := .consumer (.foreign t.source t.rank anyVersion) }).refuseValue i t [] := by
  unfold State.takeFromOwner
  rw [State.withEntry_some h, State.modify_eq_put h]
  exact if_pos (Nat.not_le.mp hl)

/-- Any version is taken from a newly recorded owner, and where none is held (R15, R16). -/
theorem State.takeFromOwner_any {t : Telegram} (hl : t.length.toNat ≤ e.decl.maxLength) {anyVersion : Bool}
    (ha : anyVersion = true ∨ e.version = none) : s.takeFromOwner i t anyVersion = s.acceptValue i t false [] := by
  unfold State.takeFromOwner
  rw [State.withEntry_some h, if_neg (Nat.not_lt.mpr hl)]
  split
  next => rfl
  next hany =>
    rw [ha.resolve_left hany]

/-- Otherwise the version order decides (R9, R16). -/
theorem State.takeFromOwner_held {t : Telegram} (hl : t.length.toNat ≤ e.decl.maxLength) {held : Byte} (hv : e.version = some held) :
    s.takeFromOwner i t false = match versionOrder t.version held with
      | .newer => s.acceptValue i t false []
      | .same => s.acceptValue i t true []
      | .older => (s.put i { e with ownership := .consumer (.foreign t.source t.rank false) }).bump .oldVersion := by
  unfold State.takeFromOwner
  rw [State.withEntry_some h, if_neg (Nat.not_lt.mpr hl), if_neg Bool.false_ne_true, State.modify_eq_put h]
  split
  next hn => rw [hv] at hn; cases hn
  next u hu =>
    obtain rfl : held = u := Option.some.inj (hv.symm.trans hu)
    rfl

/-! ## A PUBLISH at each ownership state -/

/-- An entry without an owner takes the publisher as its first, its takeover timer stopped and its deadline as it stands (R15, R20, R47). -/
theorem State.publishAtConsumer_lapsed {view : View} (hv : view = .unknown ∨ ∃ o k, view = .orphaned o k) (t : Telegram) :
    s.publishAtConsumer i t view = (s.put i { e with takeoverTimer := none }).adoptOwner i t e.freshTimer [] := by
  unfold State.publishAtConsumer
  rw [State.withEntry_some h, State.modify_eq_put h]
  obtain rfl | ⟨o, k, rfl⟩ := hv <;> rfl

theorem State.publishAtConsumer_owner (t : Telegram) (rank : BitVec 4) (anyVersion : Bool) :
    s.publishAtConsumer i t (.foreign t.source rank anyVersion) = s.takeFromOwner i t anyVersion := by
  unfold State.publishAtConsumer
  rw [State.withEntry_some h]
  exact if_pos rfl

/-- Another publisher takes the entry over by a better key (R15). -/
theorem State.publishAtConsumer_other {t : Telegram} {owner : Byte} (ho : owner ≠ t.source) (rank : BitVec 4) (anyVersion : Bool) :
    s.publishAtConsumer i t (.foreign owner rank anyVersion) =
      if 32 * t.rank.toNat + t.source.toNat < 32 * rank.toNat + owner.toNat then s.adoptOwner i t e.restartedDeadline [] else s := by
  have hkey : t.key < key rank owner ↔ 32 * t.rank.toNat + t.source.toNat < 32 * rank.toNat + owner.toNat := by
    unfold Telegram.key key
    omega
  unfold State.publishAtConsumer
  rw [State.withEntry_some h]
  exact (if_neg ho.symm).trans (ite_congr (propext hkey) (fun _ => rfl) fun _ => rfl)

/-- A claimant loses to a publisher, unless it is a HOME and the publisher is none (R33). -/
theorem State.publishAtClaimant_eq (t : Telegram) : s.publishAtClaimant i t =
    if e.decl.rank = 0#4 ∧ t.rank ≠ 0#4 then s
    else ((s.withdrawWaiting i e.slot).put i { e with slot := e.slot.voided .cancel, windowTimer := none, pendingTag := none }).adoptOwner
      i t e.restartedDeadline [(.claimOutcome .lost, e.tag)] := by
  obtain ⟨slot, hw⟩ := State.exists_entry?_withdrawWaiting h
  unfold State.publishAtClaimant
  rw [State.withEntry_some h, State.voidClaim_eq h, State.modify_eq_put (State.entry?_put_same hw _), State.put_put]

/-- A PUBLISH of an owner that drops: what waits is withdrawn, what is in flight loses its follow-up (R40). -/
theorem State.voidPublish_eq : s.voidPublish i = (s.withdrawWaiting i e.slot).put i { e with slot := e.slot.voided .none } := by
  unfold State.voidPublish
  rw [State.withEntry_some h]
  cases hs : e.slot with
  | none => exact (State.put_self (h.trans (by cases e; cases hs; rfl))).symm
  | waiting _ | owed _ | queued _ => exact State.withdraw_eq_put h (by simp [hs])
  | inFlight o f => exact State.setSlot_eq_put h _

/-- An owner drops before a better key and defends against any other (R40). -/
theorem State.publishAtOwner_eq (t : Telegram) : s.publishAtOwner i t =
    if t.key < s.ownKey e then
      ((s.withdrawWaiting i e.slot).put i { e with slot := e.slot.voided .none }.stopOwnTimers).adoptOwner i t (some e.decl.limit)
        [(.ownershipLost .conflict, 0#8)]
    else s.defend i := by
  obtain ⟨slot, hw⟩ := State.exists_entry?_withdrawWaiting h
  unfold State.publishAtOwner
  rw [State.withEntry_some h, State.voidPublish_eq h, State.modify_eq_put (State.entry?_put_same hw _), State.put_put]

end Entry

/-- PUBLISH_RECEIVED applies the oldest PUBLISH routed to OD at its entry, and judges the slots (R47, R141). -/
theorem exec_publishReceived {s : State} {t : Telegram} {rest : List Telegram} {i : Nat} {e : Entry} (h : s.routed .publish t rest i e) :
    exec .publishReceived s = .next ((s.afterRouted rest).publishAtEntry i e t).judgeSlots :=
  (State.taken_high h.1 State.publishReceived).trans (congrArg Host.Outcome.next (State.takeRouted_routed h _))

theorem exec_publishReceived_of {s u : State} {t : Telegram} {rest : List Telegram} {i : Nat} {e : Entry} (h : s.routed .publish t rest i e)
    (hu : (s.afterRouted rest).publishAtEntry i e t = u) : exec .publishReceived s = .next u.judgeSlots :=
  (exec_publishReceived h).trans (congrArg (fun u : State => Host.Outcome.next u.judgeSlots) hu)

end Sys2Proof.Machine

/-! ## The statements -/

namespace Sys2Proof

open Sys2Proof.Machine

/-- Settles O40: the acceptance by whether a QUERY waits and ARRIVAL is posted, and the refusal. -/
theorem anAcceptanceAndARefusalPostTheirRecordsInOrder : Obligations.AnAcceptanceAndARefusalPostTheirRecordsInOrder := by
  intro s i e t sameRefresh before h accepted asked fresh arrives postTo
  have haccepted := State.acceptValue_eq h t sameRefresh before
  have hput : accepted.entry? i = some (e.accepted t) := State.entry?_put_same h _
  have hasks : asked → accepted.withdrawQuery i = accepted.withdraw i := fun ha => State.withdrawQuery_asks hput ha
  have hother : ¬ asked → accepted.withdrawQuery i = accepted := fun ha => State.withdrawQuery_other hput ha
  have harrives : arrives → e.dataRecords sameRefresh = fresh ++ [(.arrival, 0#8)] := fun ha =>
    congrArg (fresh ++ ·) (if_pos ((Notify.arrives_iff _ _).mpr ha))
  have hsilent : ¬ arrives → e.dataRecords sameRefresh = fresh := fun ha =>
    (congrArg (fresh ++ ·) (if_neg (mt (Notify.arrives_iff _ _).mp ha))).trans (List.append_nil _)
  have heq : ∀ {u : State} {records : List (EventKind × Byte)}, accepted.withdrawQuery i = u → e.dataRecords sameRefresh = records →
      s.acceptValue i t sameRefresh before = postTo u (some t.version) (before ++ records) := by
    rintro u records rfl rfl
    exact haccepted
  refine ⟨fun ha hr => ?_, fun ha hr => ?_, fun ha hr => heq (hasks ha) (hsilent hr), fun ha hr => heq (hother ha) (hsilent hr),
    State.refuseValue_eq h t before⟩
  · rw [List.append_assoc]
    exact heq (hasks ha) (harrives hr)
  · rw [List.append_assoc]
    exact heq (hother ha) (harrives hr)

/-- Settles O39: a PUBLISH at a consumer entry by who the recorded owner is, then by the length, and from the owner by the version. -/
theorem aPublishAtAConsumerEntryIsTakenByOwnerKeyAndVersion : Obligations.APublishAtAConsumerEntryIsTakenByOwnerKeyAndVersion := by
  intro s t rest i e view hr ho s1 fits restarted newOwner
  have he : s1.entry? i = some e := hr.entry?_afterRouted
  have hexec : ∀ {u : State}, s1.publishAtConsumer i t view = u → exec .publishReceived s = .next u.judgeSlots := by
    rintro u rfl
    refine exec_publishReceived_of hr ?_
    unfold State.publishAtEntry
    rw [ho]
  refine ⟨fun hv => ?lapsed, fun rank any hv => ?owner, fun owner rank any hv hne => ?other⟩
  case lapsed =>
    intro stopped
    have hput : (s1.put i stopped).entry? i = some stopped := State.entry?_put_same he _
    have hpublish := State.publishAtConsumer_lapsed he hv t
    refine ⟨fun hl => hexec (hpublish.trans (State.adoptOwner_fits hput hl _ _)), fun hl => hexec (hpublish.trans ?_)⟩
    rw [State.adoptOwner_refuses hput hl, State.put_put]
    rfl
  case owner =>
    subst hv
    have hpublish := State.publishAtConsumer_owner he t rank any
    refine ⟨fun hl => hexec (hpublish.trans (State.takeFromOwner_refuses he hl any)),
      fun hl ha => hexec (hpublish.trans (State.takeFromOwner_any he hl ha)), fun held hl ha hv => ?_⟩
    intro d
    subst ha
    have hheld := hpublish.trans (State.takeFromOwner_held he hl hv)
    have hd : versionOrder t.version held = if d = 0 then .same else if d ≤ 127 then .newer else .older := versionOrder_eq _ _
    rw [hd] at hheld
    refine ⟨fun ⟨h1, h127⟩ => hexec ?_, fun h0 => hexec ?_, fun h128 => hexec ?_⟩
    · rwa [if_neg (Nat.ne_of_gt h1), if_pos h127] at hheld
    · rwa [if_pos h0] at hheld
    · rwa [if_neg (by omega), if_neg (by omega)] at hheld
  case other =>
    intro better
    subst hv
    have hpublish := State.publishAtConsumer_other he hne rank any
    refine ⟨fun hb hl => hexec ?_, fun hb hl => hexec ?_, fun hb => hexec (hpublish.trans (if_neg hb))⟩
    · exact hpublish.trans ((if_pos hb).trans (State.adoptOwner_fits he hl _ _))
    · exact hpublish.trans ((if_pos hb).trans (State.adoptOwner_refuses he hl _ _))

/-- Settles O41: a PUBLISH at a claimant by the ranks, at an owner by the keys, each then by the length; a YIELDING entry ignores it. -/
theorem aPublishDefeatsAClaimantAndAWorseOwner : Obligations.APublishDefeatsAClaimantAndAWorseOwner := by
  intro s t rest i e hr s1 fits limit
  have he : s1.entry? i = some e := hr.entry?_afterRouted
  obtain ⟨slot, hw⟩ := State.exists_entry?_withdrawWaiting he
  have hput : ∀ x, ((s1.withdrawWaiting i e.slot).put i x).entry? i = some x := State.entry?_put_same hw
  refine ⟨fun prior changed ho => ?claiming, fun ho => ?own, fun ho => exec_publishReceived_of hr ?yielding⟩
  case claiming =>
    intro lost s2 records restarted
    have hexec : ∀ {u : State}, s1.publishAtClaimant i t = u → exec .publishReceived s = .next u.judgeSlots := by
      rintro u rfl
      refine exec_publishReceived_of hr ?_
      unfold State.publishAtEntry
      rw [ho]
    have hpublish := State.publishAtClaimant_eq he t
    refine ⟨fun hhome hrank => hexec (hpublish.trans (if_pos ⟨hhome, hrank⟩)), fun hlost hl => hexec (hpublish.trans ((if_neg hlost).trans ?_)),
      fun hlost hl => hexec (hpublish.trans ((if_neg hlost).trans ?_))⟩
    · exact State.adoptOwner_fits (hput lost) hl _ _
    · exact State.adoptOwner_refuses (hput lost) hl _ _
  case own =>
    intro dropped s2 records better
    have hexec : ∀ {u : State}, s1.publishAtOwner i t = u → exec .publishReceived s = .next u.judgeSlots := by
      rintro u rfl
      refine exec_publishReceived_of hr ?_
      unfold State.publishAtEntry
      rw [ho]
    have hpublish := State.publishAtOwner_eq he t
    have hkey : t.key < s1.ownKey e ↔ better := s1.key_lt_ownKey_iff t e
    refine ⟨fun hb hl => hexec (hpublish.trans ((if_pos (hkey.mpr hb)).trans ?_)),
      fun hb hl => hexec (hpublish.trans ((if_pos (hkey.mpr hb)).trans ?_)), fun hb => hexec (hpublish.trans (if_neg (mt hkey.mp hb)))⟩
    · exact State.adoptOwner_fits (hput dropped) hl _ _
    · exact State.adoptOwner_refuses (hput dropped) hl _ _
  case yielding =>
    unfold State.publishAtEntry
    rw [ho]

end Sys2Proof
end

section
/-! PROOFS. A YIELD at the entry it reaches, and an outcome report at its entry (R31, R32, R35, R41, R42, R44, R46, R48, R65 to R67, R71, R130), and
from these the statements O43 and O45. -/

namespace Sys2Proof.Machine

-- One proof is elaborated at a time: all that the text still has in flight here would not fit the check's memory limit.
set_option Elab.async false

/-! ## The successor a YIELD names -/

theorem Telegram.successor_eq (t : Telegram) : t.successor = if t.length.toNat = 1 then t.payload.head? else none := by
  have hone : t.length = 1#8 ↔ t.length.toNat = 1 := BitVec.toNat_inj.symm
  exact ite_congr (propext hone) (fun _ => rfl) fun _ => rfl

/-- Consumers follow a successor that is neither the own station nor the source (R48). -/
theorem State.validSuccessor_eq_some_iff (s : State) (t : Telegram) (n : Byte) :
    s.validSuccessor t = some n ↔ t.successor = some n ∧ n ≠ s.ownNumber ∧ n ≠ t.source := by
  unfold State.validSuccessor
  cases ht : t.successor with
  | none => simp
  | some m =>
    dsimp only
    split
    next hbad =>
      refine ⟨nofun, fun ⟨hn, hown, hsource⟩ => ?_⟩
      obtain rfl := Option.some.inj hn
      exact absurd hbad (not_or.mpr ⟨hown, hsource⟩)
    next hgood =>
      refine ⟨fun hn => ⟨hn, ?_⟩, fun hn => hn.1⟩
      obtain rfl := Option.some.inj hn
      exact not_or.mp hgood

theorem State.validSuccessor_eq_none_iff (s : State) (t : Telegram) :
    s.validSuccessor t = none ↔ ∀ n, ¬ (t.successor = some n ∧ n ≠ s.ownNumber ∧ n ≠ t.source) := by
  simp only [← State.validSuccessor_eq_some_iff, Option.eq_none_iff_forall_ne_some, ne_eq]

/-! ## A YIELD at a consumer -/

/-- The named successor is the new owner (R48). -/
theorem State.followSuccessor_eq {s : State} {i : Nat} {e : Entry} (h : s.entry? i = some e) (n : Byte) :
    s.followSuccessor i n = (s.put i { e with ownership := .consumer (.foreign n 0#4 true), freshTimer := e.restartedDeadline,
                                              takeoverTimer := none }).post (.ownerChanged .newOwner) e.decl.objectId 0#8 e.version := by
  unfold State.followSuccessor
  rw [State.modify_eq_put h, State.postEntry_eq_post (State.entry?_put_same h _)]

section Consumer

variable (s : State) (i : Nat) (t : Telegram)

theorem State.yieldAtConsumer_owner (rank : BitVec 4) (anyVersion : Bool) : s.yieldAtConsumer i t (.foreign t.source rank anyVersion) =
    match s.validSuccessor t with
    | some n => s.followSuccessor i n
    | none => s.orphanEntry i (.foreign t.source rank anyVersion) := if_pos rfl

theorem State.yieldAtConsumer_formerOwner (rank : BitVec 4) : s.yieldAtConsumer i t (.orphaned t.source rank) =
    match s.validSuccessor t with
    | some n => s.followSuccessor i n
    | none => s := if_pos rfl

theorem State.yieldAtConsumer_otherOwner {owner : Byte} (ho : owner ≠ t.source) (rank : BitVec 4) (anyVersion : Bool) :
    s.yieldAtConsumer i t (.foreign owner rank anyVersion) = s := if_neg ho.symm

theorem State.yieldAtConsumer_otherFormerOwner {owner : Byte} (ho : owner ≠ t.source) (rank : BitVec 4) :
    s.yieldAtConsumer i t (.orphaned owner rank) = s := if_neg ho.symm

end Consumer

/-! ## A YIELD at a claimant -/

theorem Slot.cancelled_iff (slot : Slot) : slot.cancelled = true ↔ ∃ o, slot = .inFlight o .cancel := by
  cases slot with
  | inFlight o f => cases f <;> simp [Slot.cancelled]
  | none | waiting _ | owed _ | queued _ => simp [Slot.cancelled]

section Claimant

variable {s : State} {i : Nat} {e : Entry} (h : s.entry? i = some e) {t : Telegram}

include h

/-- A claimant that the YIELD names wins, unless its claim is cancelled (R35). -/
theorem State.yieldAtClaimant_wins (hn : t.successor = some s.ownNumber) (hc : ¬ ∃ o, e.slot = .inFlight o .cancel) (prior : View)
    (changed : Bool) : s.yieldAtClaimant i t prior changed = s.win i := by
  unfold State.yieldAtClaimant
  rw [State.withEntry_some h]
  exact if_pos ⟨hn, Bool.eq_false_iff.mpr (mt (Slot.cancelled_iff _).mp hc)⟩

/-- Otherwise the prior state alone may change (R35). -/
theorem State.yieldAtClaimant_updates (hn : t.successor ≠ some s.ownNumber ∨ ∃ o, e.slot = .inFlight o .cancel) {prior p : View}
    {changed c : Bool} (hp : updatedPrior t (s.validSuccessor t) prior changed = (p, c)) :
    s.yieldAtClaimant i t prior changed = s.put i { e with ownership := .claiming p c } := by
  unfold State.yieldAtClaimant
  rw [State.withEntry_some h, hp]
  refine (if_neg ?_).trans (State.modify_eq_put h _)
  rintro ⟨hnamed, hc⟩
  obtain hn | hn := hn
  · exact hn hnamed
  · rw [(Slot.cancelled_iff _).mpr hn] at hc
    cases hc

end Claimant

section Prior

variable {t : Telegram} {valid : Option Byte} {prior : View} {changed : Bool}

theorem updatedPrior_follows {n : Byte} (hv : valid = some n)
    (hp : (∃ rank any, prior = .foreign t.source rank any) ∨ ∃ rank, prior = .orphaned t.source rank) :
    updatedPrior t valid prior changed = (.foreign n 0#4 true, true) := by
  subst hv
  obtain ⟨rank, any, rfl⟩ | ⟨rank, rfl⟩ := hp <;> exact if_pos rfl

theorem updatedPrior_orphans (hv : valid = none) (rank : BitVec 4) (any : Bool) :
    updatedPrior t valid (.foreign t.source rank any) changed = (.orphaned t.source rank, true) := by
  subst hv
  exact if_pos rfl

theorem updatedPrior_other (hp : prior = .unknown ∨ (∃ o k any, prior = .foreign o k any ∧ o ≠ t.source)
    ∨ ∃ o k, prior = .orphaned o k ∧ (o ≠ t.source ∨ valid = none)) : updatedPrior t valid prior changed = (prior, changed) := by
  obtain rfl | ⟨o, k, any, rfl, ho⟩ | ⟨o, k, rfl, ho⟩ := hp
  · rfl
  · exact if_neg ho.symm
  · unfold updatedPrior
    dsimp only
    split
    next hsource => rw [ho.resolve_left (not_not_intro hsource.symm)]
    next => rfl

end Prior

/-- YIELD_RECEIVED applies the oldest YIELD routed to OD at its entry (R48). -/
theorem exec_yieldReceived {s : State} {t : Telegram} {rest : List Telegram} {i : Nat} {e : Entry} (h : s.routed .yield t rest i e) :
    exec .yieldReceived s = .next ((s.afterRouted rest).yieldAtEntry i e t) :=
  (State.taken_high h.1 State.yieldReceived).trans (congrArg Host.Outcome.next (State.takeRouted_routed h _))

/-! ## The follow-up of a telegram sent or abandoned -/

section FollowUps

variable {s : State} {i : Nat} {e : Entry} (h : s.entry? i = some e)

include h

/-- A follow-up PUBLISH is served while OWN (R67). -/
theorem State.serveFollowUp_publish (ho : e.ownership = .own) (cls : TxClass) :
    s.serveFollowUp i (.publish cls) = s.publishSpaced i e (publishOf cls false false) := by
  unfold State.serveFollowUp
  rw [State.withEntry_some h, ho]

/-- A follow-up YIELD is served while YIELDING (R67). -/
theorem State.serveFollowUp_yield (ho : e.ownership = .yielding) (successor : Option Byte) :
    s.serveFollowUp i (.yield successor) = s.append i (yieldOut successor) := by
  unfold State.serveFollowUp
  rw [State.withEntry_some h, ho]

/-- Every other follow-up has lost its reason (R67). -/
theorem State.serveFollowUp_same {f : FollowUp} (hp : ∀ cls, f = .publish cls → e.ownership ≠ .own)
    (hy : ∀ n, f = .yield n → e.ownership ≠ .yielding) : s.serveFollowUp i f = s := by
  unfold State.serveFollowUp
  rw [State.withEntry_some h]
  split
  next cls ho => exact absurd ho (hp cls rfl)
  next n ho => exact absurd ho (hy n rfl)
  all_goals rfl

theorem State.serveFollowUp_consumer {v : View} (ho : e.ownership = .consumer v) (f : FollowUp) : s.serveFollowUp i f = s :=
  State.serveFollowUp_same h (fun _ _ => by simp [ho]) fun _ _ => by simp [ho]

end FollowUps

theorem State.serveFollowUp_none (s : State) (i : Nat) : s.serveFollowUp i .none = s := by
  cases h : s.entry? i with
  | none => exact State.withEntry_none h _
  | some e => exact State.serveFollowUp_same h nofun nofun

theorem State.serveFollowUp_cancel (s : State) (i : Nat) : s.serveFollowUp i .cancel = s := by
  cases h : s.entry? i with
  | none => exact State.withEntry_none h _
  | some e => exact State.serveFollowUp_same h nofun nofun

/-! ## The rules of the kinds -/

section Kinds

variable {s : State} {i : Nat} {e : Entry} (h : s.entry? i = some e)

include h

/-- A handback that is complete (R42). -/
theorem State.handedBack_eq (successor : Byte) :
    s.handedBack i successor =
      ((s.put i { e.stopOwnTimers with ownership := .consumer (.foreign successor 0#4 true), freshTimer := some e.decl.limit }).post
        (.ownershipLost .handback) e.decl.objectId 0#8 e.version).post (.ownerChanged .newOwner) e.decl.objectId 0#8 e.version := by
  unfold State.handedBack
  rw [State.modify_postAll h]
  rfl

/-- A release or leave that is complete (R44). -/
theorem State.released_eq (outcome : TxOutcome) :
    s.released i outcome = match e.pendingTag with
      | none => s.put i e.givenUp
      | some tag => (s.put i e.givenUp).post (.releaseOutcome (match outcome with
          | .sent => .released
          | .abandoned => .unannounced)) e.decl.objectId tag e.version := by
  unfold State.released
  rw [State.withEntry_some h, State.modify_postAll h]
  cases e.pendingTag with
  | none => rfl
  | some tag => cases outcome <;> rfl

/-- A HOME entry that is ORPHANED with slot NONE runs the takeover logic (R51, R130). -/
theorem State.claimIfHomeOrphaned_free
    (hf : e.decl.role = .home ∧ e.slot = .none ∧ ∃ owner k, e.ownership = .consumer (.orphaned owner k)) :
    s.claimIfHomeOrphaned i = s.takeoverLogic i := by
  obtain ⟨hrole, hslot, ho⟩ := hf
  unfold State.claimIfHomeOrphaned
  rw [State.withEntry_some h, if_pos ⟨hrole, (Slot.isNone_iff _).mpr hslot⟩]
  exact State.takeoverIfOrphaned_orphaned h ho

theorem State.claimIfHomeOrphaned_other
    (hf : ¬ (e.decl.role = .home ∧ e.slot = .none ∧ ∃ owner k, e.ownership = .consumer (.orphaned owner k))) :
    s.claimIfHomeOrphaned i = s := by
  unfold State.claimIfHomeOrphaned
  rw [State.withEntry_some h]
  split
  next hfree =>
    exact State.takeoverIfOrphaned_other h fun owner k ho => hf ⟨hfree.1, (Slot.isNone_iff _).mp hfree.2, owner, k, ho⟩
  next => rfl

/-- An outcome frees the slot, applies the kind's rule, and serves the follow-up (R67, R130). -/
theorem State.outcomeAtEntry_eq {o : Outbound} {f : FollowUp} (hs : e.slot = .inFlight o f) (outcome : TxOutcome) :
    s.outcomeAtEntry i outcome =
      (((s.put i { e with slot := .none }).outcomeByKind i e o f outcome).serveFollowUp i f).claimIfHomeOrphaned i := by
  unfold State.outcomeAtEntry
  rw [State.withEntry_some h, hs, State.setSlot_eq_put h]

end Kinds

/-- The timers after the outcome of a PUBLISH at the entry whose slot is NONE again (R65, R66). -/
def Entry.publishOutcome (e : Entry) : TxOutcome → Entry
  | .sent => e.publishSent
  | .abandoned => e

/-- The spacing timer after a PUBLISH is sent (R65). -/
def Decl.spaced (d : Decl) : Timer := if d.spacing = 0 then none else some d.spacing

theorem Entry.publishOutcome_own {e : Entry} (ho : e.ownership = .own) (outcome : TxOutcome) : e.publishOutcome outcome = match outcome with
    | .sent => { e with refreshTimer := some e.decl.refresh, spacingTimer := e.decl.spaced }
    | .abandoned => e := by
  cases outcome with
  | sent =>
    show e.publishSent = _
    unfold Entry.publishSent
    rw [ho] <;> rfl
  | abandoned => rfl

theorem Entry.publishOutcome_yielding {e : Entry} (ho : e.ownership = .yielding) (outcome : TxOutcome) : e.publishOutcome outcome = match outcome with
    | .sent => { e with spacingTimer := e.decl.spaced }
    | .abandoned => e := by
  cases outcome with
  | sent =>
    show e.publishSent = _
    unfold Entry.publishSent
    rw [ho] <;> rfl
  | abandoned => rfl

theorem Entry.publishOutcome_consumer {e : Entry} {v : View} (ho : e.ownership = .consumer v) (outcome : TxOutcome) : e.publishOutcome outcome = e := by
  cases outcome with
  | sent =>
    show e.publishSent = _
    unfold Entry.publishSent
    rw [ho]
  | abandoned => rfl

theorem Entry.publishOutcome_ownership (e : Entry) (outcome : TxOutcome) : (e.publishOutcome outcome).ownership = e.ownership := by
  cases outcome with
  | sent =>
    show e.publishSent.ownership = _
    unfold Entry.publishSent
    dsimp only
    split <;> rfl
  | abandoned => rfl

/-- The outcome of a PUBLISH changes timers alone (R65, R66). -/
theorem State.outcomeByKind_publish {s : State} {i : Nat} {x : Entry} (h : s.entry? i = some x) {o : Outbound} (hk : o.kind = .publish) (e : Entry)
    (f : FollowUp) (outcome : TxOutcome) : s.outcomeByKind i e o f outcome = s.put i (x.publishOutcome outcome) := by
  unfold State.outcomeByKind
  rw [hk]
  cases outcome with
  | sent => exact State.modify_eq_put h _
  | abandoned => exact (State.put_self h).symm

theorem State.outcomeByKind_claim (s : State) (i : Nat) {o : Outbound} (hk : o.kind = .claim) (e : Entry) (f : FollowUp) (outcome : TxOutcome) :
    s.outcomeByKind i e o f outcome = s.claimOutcome i e f outcome := by
  unfold State.outcomeByKind
  rw [hk]

theorem State.outcomeByKind_yield (s : State) (i : Nat) {o : Outbound} (hk : o.kind = .yield) {e : Entry} (ho : e.ownership = .yielding) (f : FollowUp)
    (outcome : TxOutcome) : s.outcomeByKind i e o f outcome = match o.successor with
      | some n => s.handedBack i n
      | none => s.released i outcome := by
  unfold State.outcomeByKind State.yieldOutcome
  rw [hk, ho] <;> rfl

theorem State.outcomeByKind_query (s : State) (i : Nat) {o : Outbound} (hk : o.kind = .query) (e : Entry) (f : FollowUp) (outcome : TxOutcome) :
    s.outcomeByKind i e o f outcome = s := by
  unfold State.outcomeByKind
  rw [hk]

theorem State.claimOutcome_claiming (s : State) (i : Nat) {e : Entry} {prior : View} {changed : Bool} (ho : e.ownership = .claiming prior changed)
    (f : FollowUp) (outcome : TxOutcome) : s.claimOutcome i e f outcome =
      if f = .cancel then (s.returnToPrior i .cancelled).takeoverIfOrphaned i
      else match outcome with
        | .sent => s.modify i fun e => { e with windowTimer := some s.claimWindow }
        | .abandoned => (s.returnToPrior i .failed).takeoverLogic i := by
  unfold State.claimOutcome
  rw [ho] <;> rfl

/-- The claim may have ended in flight: its outcome then does nothing (R67). -/
theorem State.claimOutcome_ended (s : State) (i : Nat) {e : Entry} (ho : ∀ prior changed, e.ownership ≠ .claiming prior changed)
    (f : FollowUp) (outcome : TxOutcome) : s.claimOutcome i e f outcome = s := by
  unfold State.claimOutcome
  split
  next prior changed hc => exact absurd hc (ho prior changed)
  all_goals rfl

end Sys2Proof.Machine

/-! ## The statements -/

namespace Sys2Proof

open Sys2Proof.Machine

/-- Settles O43: a YIELD at a consumer by the recorded owner and the successor, at a claimant by whether it names the own station and by the prior
state. -/
theorem aYieldIsFollowedOrphansOrWinsAClaim : Obligations.AYieldIsFollowedOrphansOrWinsAClaim := by
  intro s t rest i e hr s1 named follow valid unnamed
  have he : s1.entry? i = some e := hr.entry?_afterRouted
  have hnamed : t.successor = named := t.successor_eq
  have hvalid : ∀ {n : Byte}, valid n → s1.validSuccessor t = some n := fun {n} hv =>
    (s1.validSuccessor_eq_some_iff t n).mpr (hnamed ▸ hv)
  have hunnamed : unnamed → s1.validSuccessor t = none := fun hu =>
    (s1.validSuccessor_eq_none_iff t).mpr (hnamed ▸ hu)
  have hfollow : ∀ n, s1.followSuccessor i n = follow n := State.followSuccessor_eq he
  have hexec : ∀ {u : State}, s1.yieldAtEntry i e t = u → exec .yieldReceived s = .next u := fun hu =>
    (exec_yieldReceived hr).trans (congrArg Host.Outcome.next hu)
  have hconsumer : ∀ {view : View} {u : State}, e.ownership = .consumer view → s1.yieldAtConsumer i t view = u →
      exec .yieldReceived s = .next u := by
    rintro view u ho rfl
    refine hexec ?_
    unfold State.yieldAtEntry
    rw [ho]
  refine ⟨fun rank any ho => ⟨fun n hv => hconsumer ho ?follows, fun hu => hconsumer ho ?orphans⟩,
    fun rank ho => ⟨fun n hv => hconsumer ho ?follows', fun hu => hconsumer ho ?stays⟩, fun ho => ?other, fun prior changed ho => ?claiming⟩
  case follows => rw [State.yieldAtConsumer_owner, hvalid hv] <;> exact hfollow n
  case orphans => rw [State.yieldAtConsumer_owner, hunnamed hu] <;> exact State.orphanEntry_eq he _
  case follows' => rw [State.yieldAtConsumer_formerOwner, hvalid hv] <;> exact hfollow n
  case stays => rw [State.yieldAtConsumer_formerOwner, hunnamed hu]
  case other =>
    obtain ho | ho | ho | ⟨o, k, any, ho, hne⟩ | ⟨o, k, ho, hne⟩ := ho
    · exact hconsumer ho rfl
    · refine hexec ?_
      unfold State.yieldAtEntry
      rw [ho]
    · refine hexec ?_
      unfold State.yieldAtEntry
      rw [ho]
    · exact hconsumer ho (State.yieldAtConsumer_otherOwner s1 i t hne k any)
    · exact hconsumer ho (State.yieldAtConsumer_otherFormerOwner s1 i t hne k)
  case claiming =>
    intro cancelled
    have hclaiming : ∀ {u : State}, s1.yieldAtClaimant i t prior changed = u → exec .yieldReceived s = .next u := by
      rintro u rfl
      refine hexec ?_
      unfold State.yieldAtEntry
      rw [ho]
    refine ⟨fun hn hc => hclaiming (State.yieldAtClaimant_wins he (hnamed.trans hn) hc prior changed), fun hn => ?_⟩
    intro updated
    rw [← hnamed] at hn
    have hupdated : ∀ {p : View}, updatedPrior t (s1.validSuccessor t) prior changed = (p, true) → updated p := fun hp =>
      hclaiming (State.yieldAtClaimant_updates he hn hp)
    refine ⟨fun rank any hp => ⟨fun n hv => hupdated (updatedPrior_follows (hvalid hv) (.inl ⟨rank, any, hp⟩)), fun hu => hupdated ?_⟩,
      fun rank n hp hv => hupdated (updatedPrior_follows (hvalid hv) (.inr ⟨rank, hp⟩)), fun hp => hclaiming ?_⟩
    · subst hp
      exact updatedPrior_orphans (hunnamed hu) rank any
    · have hsame : updatedPrior t (s1.validSuccessor t) prior changed = (prior, changed) := by
        refine updatedPrior_other (hp.imp_right fun hp => hp.imp_right ?_)
        rintro ⟨o, k, hp, hne⟩
        exact ⟨o, k, hp, hne.imp_right hunnamed⟩
      exact (State.yieldAtClaimant_updates he hn hsame).trans (State.put_self (he.trans (by cases e; cases ho; rfl)))

/-- Settles O45: an outcome report by the kind of the telegram in flight, the ownership state and the follow-up. -/
theorem anOutcomeFreesTheSlotAndServesTheFollowUp : Obligations.AnOutcomeFreesTheSlotAndServesTheFollowUp := by
  intro s i outcome rest e o f hr hreports h hs freed s1 s2 finish spaced limit
  have he : s1.entry? i = some e := (State.entry?_of_entries rfl i).trans h
  have hput : ∀ x, (s1.put i x).entry? i = some x := State.entry?_put_same he
  have hfinish : ∀ {u : State}, (s2.outcomeByKind i e o f outcome).serveFollowUp i f = u → finish u := by
    rintro u rfl
    refine (State.taken_high hr State.outcomeReport).trans (congrArg Host.Outcome.next ?_)
    unfold State.outcomeReport
    rw [hreports]
    exact congrArg State.judgeSlots (State.outcomeAtEntry_eq he hs outcome)
  have hpublish : o.kind = .publish → s2.outcomeByKind i e o f outcome = s1.put i (freed.publishOutcome outcome) := fun hk =>
    (State.outcomeByKind_publish (hput freed) hk e f outcome).trans (State.put_put _ _ _ _)
  have hended : o.kind = .claim → (∀ prior changed, e.ownership ≠ .claiming prior changed) → s2.outcomeByKind i e o f outcome = s2 := fun hk ho =>
    (s2.outcomeByKind_claim i hk e f outcome).trans (State.claimOutcome_ended s2 i ho f outcome)
  refine ⟨fun hk ho hf => ?publishOwn, fun hk ho n hf => ?publishYielding, fun hk ho => ?publishConsumer, fun prior changed hk ho => ?claiming,
    fun hk ho => ?claimConsumer, fun cls hk ho hf hspacing => hfinish ?claimOwn, fun n hk ho hf => hfinish ?claimYielding,
    fun n hk hn ho hf => hfinish ?handback, fun hk hn ho hf => ?release, fun hk hf => hfinish ?query,
    fun u e' hu => ⟨State.claimIfHomeOrphaned_free hu, State.claimIfHomeOrphaned_other hu⟩⟩
  case publishOwn =>
    intro timed
    have htimed : freed.publishOutcome outcome = timed := Entry.publishOutcome_own (e := freed) ho outcome
    have hown : timed.ownership = .own := htimed ▸ (Entry.publishOutcome_ownership freed outcome).trans ho
    have hrule := htimed ▸ hpublish hk
    clear_value timed
    cases f with
    | none => exact hfinish (hrule ▸ State.serveFollowUp_none _ i)
    | cancel => exact hfinish (hrule ▸ State.serveFollowUp_cancel _ i)
    | yield n => exact absurd rfl (hf n)
    | publish cls =>
      have hserved := (State.serveFollowUp_publish (hput timed) hown cls).trans (State.publishSpaced_eq (hput timed) _)
      cases hspacing : timed.spacingTimer with
      | none =>
        rw [hspacing] at hserved
        exact hfinish (hrule ▸ hserved)
      | some left =>
        rw [hspacing] at hserved
        refine hfinish ?_
        rw [hrule]
        exact hserved.trans (State.put_put _ _ _ _)
  case publishYielding =>
    intro timed
    have htimed : freed.publishOutcome outcome = timed := Entry.publishOutcome_yielding (e := freed) ho outcome
    have hyielding : timed.ownership = .yielding := htimed ▸ (Entry.publishOutcome_ownership freed outcome).trans ho
    refine hfinish ?_
    rw [hpublish hk, htimed, hf]
    exact State.serveFollowUp_yield (hput timed) hyielding n
  case publishConsumer =>
    obtain ⟨v, ho⟩ := ho
    refine hfinish ?_
    rw [hpublish hk, Entry.publishOutcome_consumer (e := freed) ho]
    exact State.serveFollowUp_consumer (hput freed) ho f
  case claiming =>
    have hrule := (s2.outcomeByKind_claim i hk e f outcome).trans (State.claimOutcome_claiming s2 i ho f outcome)
    refine ⟨fun hf => hfinish ?_, fun hf hsent => hfinish ?_, fun hf habandoned => hfinish ?_⟩
    · subst hf
      exact hrule ▸ State.serveFollowUp_cancel _ i
    · subst hf hsent
      rw [hrule]
      exact (State.serveFollowUp_none _ i).trans ((State.modify_eq_put (hput freed) _).trans (State.put_put _ _ _ _))
    · subst hf habandoned
      rw [hrule]
      exact State.serveFollowUp_none _ i
  case claimConsumer =>
    obtain ⟨v, ho⟩ := ho
    refine hfinish ?_
    rw [hended hk (by simp [ho])]
    exact State.serveFollowUp_consumer (hput freed) ho f
  case claimOwn =>
    rw [hended hk (by simp [ho]), hf, State.serveFollowUp_publish (hput freed) ho, State.publishSpaced_eq (hput freed),
      show freed.spacingTimer = none from hspacing] <;> rfl
  case claimYielding =>
    rw [hended hk (by simp [ho]), hf]
    exact State.serveFollowUp_yield (hput freed) ho n
  case handback =>
    rw [s2.outcomeByKind_yield i hk ho, hn, hf]
    exact (State.serveFollowUp_none _ i).trans ((State.handedBack_eq (hput freed) n).trans (by rw [State.put_put]; rfl))
  case release =>
    intro released
    have hreleased := State.released_eq (hput freed) outcome
    rw [State.put_put] at hreleased
    have hserved : (s2.outcomeByKind i e o f outcome).serveFollowUp i f = s2.released i outcome := by
      rw [s2.outcomeByKind_yield i hk ho, hn, hf]
      exact State.serveFollowUp_none _ i
    cases htag : e.pendingTag with
    | none =>
      rw [show freed.pendingTag = none from htag] at hreleased
      exact hfinish (hserved.trans hreleased)
    | some tag =>
      rw [show freed.pendingTag = some tag from htag] at hreleased
      exact hfinish (hserved.trans hreleased)
  case query =>
    rw [s2.outcomeByKind_query i hk, hf]
    exact State.serveFollowUp_none _ i

end Sys2Proof
end

section
/-! PROOFS. The timebase, the freshness deadline, the refresh and the spacing timers (R7, R60, R61, R63, R73, R193): an equation for each expiry, and
from these the statements O46, O47 and O49. -/

namespace Sys2Proof.Machine

-- One proof is elaborated at a time: all that the text still has in flight here would not fit the check's memory limit.
set_option Elab.async false

/-- An increment and the replacing of an entry commute: the one changes EU, the other OD. -/
theorem State.put_bump (s : State) (i : Nat) (e : Entry) (c : Counter) : (s.bump c).put i e = (s.put i e).bump c := by
  by_cases hmax : s.eu.counters.get c = 65535#16
  · rw [State.bump_saturated hmax, State.bump_saturated (s := s.put i e) hmax]
  · rw [State.bump_counts hmax, State.bump_counts (s := s.put i e) hmax]
    by_cases hmark : s.eu.counters.get c + 1#16 = Config.harvestMark ∧ s.eu.harvestArmed = true
    · rw [if_pos hmark, State.put_post]
      exact (if_pos hmark).symm
    · rw [if_neg hmark]
      exact (if_neg hmark).symm

section Entry

variable {s : State} {i : Nat} {e : Entry} (h : s.entry? i = some e)

include h

/-- A freshness deadline that expires leaves the entry STALE, with a STALE event unless NOTIFY is NONE (R73). -/
theorem State.freshnessExpired_due (ht : e.freshTimer = some 0) : s.freshnessExpired i =
    if e.decl.notify = .none then s.put i { e with freshness := .stale, freshTimer := none }
    else (s.put i { e with freshness := .stale, freshTimer := none }).post .stale e.decl.objectId 0#8 e.version := by
  unfold State.freshnessExpired
  rw [State.atDue_due h ht, State.modify_eq_put h]
  dsimp only
  rw [State.postEntry_eq_post (State.entry?_put_same h _)]

/-- A spacing timer that expires releases the PUBLISH that waits for it (R63). -/
theorem State.spacingExpired_waiting (ht : e.spacingTimer = some 0) {o : Outbound} (hs : e.slot = .waiting o) :
    s.spacingExpired i = (s.put i { e with spacingTimer := none }).append i o := by
  unfold State.spacingExpired
  rw [State.atDue_due h ht, State.modify_eq_put h, hs]

theorem State.spacingExpired_other (ht : e.spacingTimer = some 0) (hs : ∀ o, e.slot ≠ .waiting o) :
    s.spacingExpired i = s.put i { e with spacingTimer := none } := by
  unfold State.spacingExpired
  rw [State.atDue_due h ht, State.modify_eq_put h]
  dsimp only
  split
  next o hw => exact absurd hw (hs o)
  all_goals rfl

/-- A refresh timer that expires at an owner restarts where the slot is busy (R60). -/
theorem State.refreshExpired_busy (ht : e.refreshTimer = some 0) (ho : e.ownership = .own) (hs : e.slot ≠ .none) :
    s.refreshExpired i = s.put i e.refreshRestarted := by
  unfold State.refreshExpired
  rw [State.atDue_due h ht, if_neg (not_not_intro ho), if_pos (Bool.eq_false_iff.mpr (mt (Slot.isNone_iff _).mp hs))]
  exact State.modify_eq_put h _

/-- It restarts and the refresh is shed where BACKLOG holds a ROUTINE one back (R61). -/
theorem State.refreshExpired_shed (ht : e.refreshTimer = some 0) (ho : e.ownership = .own) (hs : e.slot = .none)
    (hb : s.ts.backlog = true ∧ e.decl.cls = .routine) : s.refreshExpired i = (s.put i e.refreshRestarted).bump .shed := by
  unfold State.refreshExpired
  rw [State.atDue_due h ht, if_neg (not_not_intro ho), if_neg (by simp [hs, Slot.isNone]), if_pos hb]
  exact (State.modify_eq_put ((State.entry?_bump _ _ _).trans h) _).trans (s.put_bump i _ _)

/-- Otherwise it stops and a refresh is requested (R60). -/
theorem State.refreshExpired_requests (ht : e.refreshTimer = some 0) (ho : e.ownership = .own) (hs : e.slot = .none)
    (hb : ¬ (s.ts.backlog = true ∧ e.decl.cls = .routine)) : s.refreshExpired i =
      (s.put i { e with refreshTimer := none }).publishSpaced i e (publishOf e.decl.cls true false) := by
  unfold State.refreshExpired
  rw [State.atDue_due h ht, if_neg (not_not_intro ho), if_neg (by simp [hs, Slot.isNone]), if_neg hb, State.modify_eq_put h]

end Entry

theorem State.refreshExpired_idle {s : State} {i : Nat}
    (h : ∀ e, s.entry? i = some e → e.refreshTimer ≠ some 0 ∨ e.ownership ≠ .own) : s.refreshExpired i = s :=
  State.atDue_same fun e he => (h e he).imp_right fun ho => if_pos ho

end Sys2Proof.Machine

/-! ## The statements -/

namespace Sys2Proof

open Sys2Proof.Machine

/-- Settles O46: the freshness deadline by NOTIFY, the spacing timer by whether a PUBLISH waits. -/
theorem aFreshnessDeadlineGoesStaleAndSpacingReleasesAWaitingPublish :
    Obligations.AFreshnessDeadlineGoesStaleAndSpacingReleasesAWaitingPublish := by
  refine ⟨fun s i e hr he ht => ?fresh, fun s i e hr he ht => ?spacing, fun s i => ⟨fun h => ?freshIdle, fun h => ?spacingIdle⟩⟩
  case fresh => exact (State.taken_high hr (·.freshnessExpired i)).trans (congrArg Host.Outcome.next (State.freshnessExpired_due he ht))
  case spacing =>
    have hexec := State.taken_high hr (·.spacingExpired i)
    exact ⟨fun o hs => hexec.trans (congrArg Host.Outcome.next (State.spacingExpired_waiting he ht hs)),
      fun hs => hexec.trans (congrArg Host.Outcome.next (State.spacingExpired_other he ht hs))⟩
  case freshIdle => exact State.taken_same (f := (·.freshnessExpired i)) (State.atDue_same fun e he => .inl (h e he))
  case spacingIdle => exact State.taken_same (f := (·.spacingExpired i)) (State.atDue_same fun e he => .inl (h e he))

/-- Settles O47: the refresh timer of an owner by the slot and BACKLOG, the refresh by the spacing timer. -/
theorem aRefreshTimerRequestsShedsOrRestarts : Obligations.ARefreshTimerRequestsShedsOrRestarts := by
  refine ⟨fun s i e hr he ht ho => ?due, fun s i h => State.taken_same (f := (·.refreshExpired i)) (State.refreshExpired_idle h)⟩
  case due =>
    intro restarted refresh
    have hexec : ∀ {u : State}, s.refreshExpired i = u → exec (.refreshTimerExpiry i) s = .next u := fun hu =>
      (State.taken_high hr (·.refreshExpired i)).trans (congrArg Host.Outcome.next hu)
    refine ⟨fun hs => hexec (State.refreshExpired_busy he ht ho hs),
      fun hs hb hc => hexec (State.refreshExpired_shed he ht ho hs ⟨hb, hc⟩), fun hs hb => hexec ?_⟩
    have hroom : ¬ (s.ts.backlog = true ∧ e.decl.cls = .routine) := by
      rintro ⟨hbacklog, hroutine⟩
      rw [hbacklog, hroutine] at hb
      obtain hb | hb := hb <;> cases hb
    have hput : (s.put i { e with refreshTimer := none }).entry? i = some { e with refreshTimer := none } := State.entry?_put_same he _
    refine (State.refreshExpired_requests he ht ho hs hroom).trans ((State.publishSpaced_eq hput refresh).trans ?_)
    rw [State.put_put] <;> rfl

/-- Settles O49: the tick takes a millisecond off every timer that runs. -/
theorem aMillisecondAdvancesTheClockAndEveryRunningTimer : Obligations.AMillisecondAdvancesTheClockAndEveryRunningTimer := by
  intro s hr less
  have hless : Timer.tick = less := by
    funext timer
    cases timer <;> rfl
  refine (State.taken_high hr State.tick).trans (congrArg Host.Outcome.next ?_)
  unfold State.tick Entry.tick PeerRow.tick Phase.tick
  rw [hless] <;> rfl

end Sys2Proof
end

section
/-! PROOFS. What an entry may be in a station state (R27, R127 to R129, R141), read ownership state by ownership state, and the state of the directory in
the middle of an operation: every entry but the one in hand fits. -/

namespace Sys2Proof.Machine

-- One proof is elaborated at a time: all that the text still has in flight here would not fit the check's memory limit.
set_option Elab.async false

/-! ## The slots that fit an ownership state -/

/-- The slots of a consumer (R127 to R129). -/
def Slot.FitsConsumer : Slot → Prop
  | .none => True
  | .waiting _ => False
  | .owed o | .queued o => o.kind = .query
  | .inFlight o f => ((o.kind = .query ∨ o.kind = .publish ∨ o.kind = .claim) ∧ f = .none) ∨ (o.kind = .claim ∧ f = .cancel)

/-- The slots of a claimant in ACTIVE, with its claim window (R31, R127 to R129). -/
def Slot.FitsClaimant (window : Timer) : Slot → Prop
  | .none => True
  | .waiting _ => False
  | .owed o | .queued o => o.kind = .claim ∧ window = Option.none
  | .inFlight o f => o.kind = .claim ∧ window = Option.none ∧ (f = .none ∨ f = .cancel)

/-- The slot of a claimant in LEAVING: its claim is cancelled, and in flight (R54). -/
def Slot.FitsCancelled (slot : Slot) : Prop := ∃ o, slot = .inFlight o .cancel ∧ o.kind = .claim

/-- The slots of an owner (R127 to R129). -/
def Slot.FitsOwner : Slot → Prop
  | .none => True
  | .waiting o | .owed o | .queued o => o.kind = .publish
  | .inFlight o f => (o.kind = .publish ∧ f = .none) ∨ ((o.kind = .publish ∨ o.kind = .claim) ∧ ∃ cls, f = .publish cls)

/-- The slots of an entry that yields (R127 to R129). -/
def Slot.FitsYielding : Slot → Prop
  | .none | .waiting _ => False
  | .owed o | .queued o => o.kind = .yield
  | .inFlight o f => (o.kind = .yield ∧ f = .none) ∨ ((o.kind = .publish ∨ o.kind = .claim) ∧ ∃ n, f = .yield n)

/-! ## The entries that fit a station state -/

section Station

variable {e : Entry} {st : StationState}

theorem Entry.fitsStation_consumer {v : View} (ho : e.ownership = .consumer v) :
    e.FitsStation st ↔ e.windowTimer = none ∧ e.slot.FitsConsumer := by
  unfold Entry.FitsStation Entry.slotFits
  rw [ho]
  cases e.slot with
  | none => simp [Ownership.isConsumer, Slot.FitsConsumer]
  | waiting o => simp [Slot.FitsConsumer]
  | owed o | queued o => simp [Ownership.isConsumer, Slot.FitsConsumer, and_comm]
  | inFlight o f => cases hk : o.kind <;> cases f <;> simp [Ownership.isConsumer, Slot.FitsConsumer, hk]

theorem Entry.fitsStation_claiming {v : View} {c : Bool} (ho : e.ownership = .claiming v c) :
    e.FitsStation st ↔ e.decl.role ≠ .listen
      ∧ (st = .active ∧ e.slot.FitsClaimant e.windowTimer ∨ st = .leaving ∧ e.slot.FitsCancelled ∧ e.windowTimer = none) := by
  unfold Entry.FitsStation Entry.slotFits
  rw [ho]
  cases e.slot with
  | inFlight o f => cases st <;> cases f <;> simp [Ownership.isConsumer, Slot.FitsClaimant, Slot.FitsCancelled]
  | none | waiting o | owed o | queued o => cases st <;> simp [Ownership.isConsumer, Slot.FitsClaimant, Slot.FitsCancelled]

theorem Entry.fitsStation_own (ho : e.ownership = .own) :
    e.FitsStation st ↔ st = .active ∧ e.decl.role ≠ .listen ∧ e.slot.FitsOwner := by
  unfold Entry.FitsStation Entry.slotFits
  rw [ho]
  cases e.slot with
  | none | waiting o | owed o | queued o => cases st <;> simp [Ownership.isConsumer, Slot.FitsOwner]
  | inFlight o f => cases st <;> cases hk : o.kind <;> cases f <;> simp [Ownership.isConsumer, Slot.FitsOwner, hk]

theorem Entry.fitsStation_yielding (ho : e.ownership = .yielding) :
    e.FitsStation st ↔ (st = .active ∨ st = .leaving) ∧ e.decl.role ≠ .listen ∧ e.slot.FitsYielding := by
  unfold Entry.FitsStation Entry.slotFits
  rw [ho]
  cases e.slot with
  | none | waiting o | owed o | queued o => cases st <;> simp [Ownership.isConsumer, Slot.FitsYielding]
  | inFlight o f => cases st <;> cases hk : o.kind <;> cases f <;> simp [Ownership.isConsumer, Slot.FitsYielding, hk]

/-- A promotion changes nothing of what an entry fits. -/
theorem Entry.fitsStation_promoted (h : e.FitsStation st) : e.promoted.FitsStation st := by
  cases hs : e.slot with
  | owed o =>
    rw [Entry.promoted_owed hs]
    have hslot : ∀ l, ({ e with slot := .queued o } : Entry).slotFits l = e.slotFits l := by
      intro l
      unfold Entry.slotFits
      rw [hs]
      cases e.ownership <;> rfl
    obtain ⟨h1, h2, h3, h4⟩ := h
    exact ⟨h1, h2, h3, (hslot _).trans h4⟩
  | none | waiting _ | queued _ | inFlight _ _ =>
    unfold Entry.promoted
    rw [hs]
    exact h

end Station

/-! ## The entries that fit a state of the part -/

/-- The slots-clear notice of the leave has been given: every slot is NONE, and stays so (R141). -/
def State.SlotsMustBeClear (s : State) : Prop := s.sc.state = .leaving ∧ s.paths.clearNotice ≠ .notGiven

/-- The entry fits the station state, and its slot the slots-clear notice. -/
def Entry.Fits (s : State) (e : Entry) : Prop := e.FitsStation s.sc.state ∧ (s.SlotsMustBeClear → e.slot = .none)

/-- The entry would fit as a consumer. -/
def Entry.FitsAsConsumer (s : State) (e : Entry) : Prop :=
  e.windowTimer = none ∧ e.slot.FitsConsumer ∧ (s.SlotsMustBeClear → e.slot = .none)

section Entry

variable {s : State} {e : Entry}

theorem Entry.fits_consumer {v : View} (ho : e.ownership = .consumer v) : e.Fits s ↔ e.FitsAsConsumer s := by
  unfold Entry.Fits Entry.FitsAsConsumer
  rw [Entry.fitsStation_consumer ho, and_assoc]

theorem State.not_slotsMustBeClear (h : s.sc.state = .active) : ¬ s.SlotsMustBeClear := fun hc => by
  rw [hc.1] at h
  cases h

/-- Where every slot must be NONE, every entry is a consumer. -/
theorem Entry.Fits.not_slotsMustBeClear (h : e.Fits s) (ho : e.ownership.isConsumer = false) : ¬ s.SlotsMustBeClear := by
  intro hc
  have hnone := h.2 hc
  have hfits := h.1
  rw [hc.1] at hfits
  cases hown : e.ownership with
  | consumer v => rw [hown] at ho; cases ho
  | claiming v c =>
    obtain ⟨-, ⟨hst, -⟩ | ⟨-, ⟨o, ho, -⟩, -⟩⟩ := (Entry.fitsStation_claiming hown).mp hfits
    · cases hst
    · rw [hnone] at ho; cases ho
  | own =>
    obtain ⟨hst, -⟩ := (Entry.fitsStation_own hown).mp hfits
    cases hst
  | yielding =>
    obtain ⟨-, -, hslot⟩ := (Entry.fitsStation_yielding hown).mp hfits
    rw [hnone] at hslot
    exact hslot

theorem Entry.Fits.of_station (h : e.FitsStation s.sc.state) (hc : ¬ s.SlotsMustBeClear) : e.Fits s := ⟨h, fun hmust => absurd hmust hc⟩

theorem Entry.Fits.promoted (h : e.Fits s) : e.promoted.Fits s := by
  refine ⟨Entry.fitsStation_promoted h.1, fun hc => ?_⟩
  unfold Entry.promoted
  rw [h.2 hc]
  exact h.2 hc

/-- A telegram that fits in a queue fits on an owed list. -/
theorem Entry.Fits.owed {o : Outbound} (h : ({ e with slot := .queued o } : Entry).Fits s) : ({ e with slot := .owed o } : Entry).Fits s := by
  obtain ⟨⟨h1, h2, h3, h4⟩, hc⟩ := h
  refine ⟨⟨h1, h2, h3, ?_⟩, fun hmust => nomatch hc hmust⟩
  have hslot : ∀ l, ({ e with slot := .owed o } : Entry).slotFits l = ({ e with slot := .queued o } : Entry).slotFits l := by
    intro l
    unfold Entry.slotFits
    cases e.ownership <;> rfl
  exact (hslot _).trans h4

end Entry

/-! ## The directory in the middle of an operation -/

/-- In t, reached from b by an operation, every entry but that of index i is as F allows at its index; the station state and the slots-clear notice
are those of b, and no LEAVING PRESENCE has come up. With i = 0, where no entry is, the directory as a whole is as F allows. -/
structure State.FitsBut (b : State) (i : Nat) (F : Nat → Entry → Prop) (t : State) : Prop where
  promoted : ∀ j e, F j e → F j e.promoted
  fits : ∀ j e, e.Fits b → F j e
  state : t.sc.state = b.sc.state
  clearNotice : t.paths.clearNotice = b.paths.clearNotice
  presence : t.sc.presence.carriesLeaving = true → b.sc.presence.carriesLeaving = true
  entries : ∀ j e, j ≠ i → t.entry? j = some e → F j e

namespace State.FitsBut

variable {F : Nat → Entry → Prop} {b t : State} {i : Nat}

/-- What leaves the entries, the station state, the notice and the PRESENCE alone. -/
theorem congr (h : b.FitsBut i F t) {u : State} (hod : u.od.entries = t.od.entries) (hst : u.sc.state = t.sc.state)
    (hnotice : u.paths.clearNotice = t.paths.clearNotice)
    (hpresence : u.sc.presence.carriesLeaving = true → t.sc.presence.carriesLeaving = true) : b.FitsBut i F u where
  promoted := h.promoted
  fits := h.fits
  state := hst.trans h.state
  clearNotice := hnotice.trans h.clearNotice
  presence := h.presence ∘ hpresence
  entries j e hj he := h.entries j e hj ((State.entry?_of_entries hod j).symm.trans he)

theorem but (h : b.FitsBut 0 F t) (i : Nat) : b.FitsBut i F t :=
  { h with entries := fun j e _ he => h.entries j e (by rintro rfl; cases he) he }

theorem entry {e : Entry} (h : b.FitsBut 0 F t) (he : t.entry? i = some e) : F i e :=
  h.entries i e (by rintro rfl; cases he) he

/-- The directory as a whole fits where the entry in hand does, too. -/
theorem close (h : b.FitsBut i F t) {e : Entry} (he : t.entry? i = some e) (hfits : F i e) : b.FitsBut 0 F t :=
  { h with
    entries := fun j x _ hx => by
      by_cases hj : j = i
      · subst hj
        obtain rfl := Option.some.inj (he.symm.trans hx)
        exact hfits
      · exact h.entries j x hj hx }

theorem withEntry (h : b.FitsBut i F t) {j : Nat} {k : Entry → State} (hk : ∀ e, t.entry? j = some e → b.FitsBut i F (k e)) :
    b.FitsBut i F (t.withEntry j k) := by
  cases he : t.entry? j with
  | none => rwa [State.withEntry_none he]
  | some e => rw [State.withEntry_some he]; exact hk e he

theorem post (h : b.FitsBut i F t) (k : EventKind) (id : BitVec 12) (tag : Byte) (v : Option Byte) : b.FitsBut i F (t.post k id tag v) := by
  obtain ⟨q, l, hq⟩ := t.post_eq k id tag v
  rw [hq]
  exact h.congr rfl rfl rfl fun hp => hp

theorem postStation (h : b.FitsBut i F t) (k : EventKind) (tag : Byte) : b.FitsBut i F (t.postStation k tag) := h.post _ _ _ _

theorem bump (h : b.FitsBut i F t) (c : Counter) : b.FitsBut i F (t.bump c) := by
  obtain ⟨q, l, n, a, hq⟩ := t.bump_eq c
  rw [hq]
  exact h.congr rfl rfl rfl fun hp => hp

theorem postRecords (e : Entry) : ∀ (rs : List (EventKind × Byte)) {t : State}, b.FitsBut i F t → b.FitsBut i F (t.postRecords e rs)
  | [], _, h => h
  | _ :: rs, _, h => postRecords e rs (h.post _ _ _ _)

theorem postEntry (h : b.FitsBut i F t) (j : Nat) (k : EventKind) (tag : Byte) : b.FitsBut i F (t.postEntry j k tag) :=
  h.withEntry fun _ _ => h.post _ _ _ _

/-- What changes the entry of index i leaves the others alone. -/
theorem modify (h : b.FitsBut i F t) (f : Entry → Entry) : b.FitsBut i F (t.modify i f) where
  promoted := h.promoted
  fits := h.fits
  state := by cases i <;> exact h.state
  clearNotice := by cases i <;> exact h.clearNotice
  presence := by cases i <;> exact h.presence
  entries j e hj he := h.entries j e hj ((t.entry?_modify_other hj f).symm.trans he)

theorem put (h : b.FitsBut i F t) {old : Entry} (he : t.entry? i = some old) (e : Entry) : b.FitsBut i F (t.put i e) where
  promoted := h.promoted
  fits := h.fits
  state := h.state
  clearNotice := h.clearNotice
  presence := h.presence
  entries j x hj hx := by
    have hi : 1 ≤ i := by
      obtain ⟨k, rfl, -⟩ := State.entry?_lt he
      exact Nat.succ_pos k
    exact h.entries j x hj ((t.entry?_put_other hi hj e).symm.trans hx)

theorem modify_promoted (h : b.FitsBut i F t) (j : Nat) : b.FitsBut i F (t.modify j Entry.promoted) where
  promoted := h.promoted
  fits := h.fits
  state := by cases j <;> exact h.state
  clearNotice := by cases j <;> exact h.clearNotice
  presence := by cases j <;> exact h.presence
  entries k e hk he := by
    by_cases hj : k = j
    · subst hj
      rw [State.entry?_modify_same] at he
      obtain ⟨x, hx, rfl⟩ := Option.map_eq_some_iff.mp he
      exact h.promoted k x (h.entries k x hk hx)
    · exact h.entries k e hk ((t.entry?_modify_other hj _).symm.trans he)

theorem judgeBacklog (h : b.FitsBut i F t) : b.FitsBut i F t.judgeBacklog := by
  unfold State.judgeBacklog
  split
  · exact h
  all_goals
    refine postStation ?_ _ _
    exact h.congr rfl rfl rfl id

theorem joinRoutine (h : b.FitsBut i F t) (r : Ref) : b.FitsBut i F (t.joinRoutine r) := by
  refine judgeBacklog ?_
  exact h.congr rfl rfl rfl id

theorem offerUrgent (h : b.FitsBut i F t) : b.FitsBut i F t.offerUrgent := by
  unfold State.offerUrgent
  split
  · exact h
  · split
    · refine modify_promoted ?_ _
      exact h.congr rfl rfl rfl id
    · exact h

theorem offerRoutine (h : b.FitsBut i F t) : b.FitsBut i F t.offerRoutine := by
  unfold State.offerRoutine
  split
  · split
    next st hp =>
      refine joinRoutine ?_ _
      exact h.congr rfl rfl rfl (by rw [hp]; exact id)
    all_goals
      split
      · exact h
      · refine joinRoutine (modify_promoted ?_ _) _
        exact h.congr rfl rfl rfl id
  · exact h

theorem freedRoutine (h : b.FitsBut i F t) : b.FitsBut i F t.freedRoutine := h.judgeBacklog.offerRoutine

/-- An append changes the entry in hand, a withdrawal that entry and what it promotes. -/
theorem append (h : b.FitsBut i F t) (o : Outbound) : b.FitsBut i F (t.append i o) := by
  unfold State.append State.setSlot
  split
  · split
    · exact (h.modify _).congr rfl rfl rfl id
    · exact (h.modify _).congr rfl rfl rfl id
  · split
    · exact (h.modify _).joinRoutine _
    · exact (h.modify _).congr rfl rfl rfl id

theorem withdraw (h : b.FitsBut i F t) : b.FitsBut i F (t.withdraw i) := by
  refine h.withEntry fun e he => ?_
  split
  next => exact h
  next => exact h
  next => exact h.modify _
  next => exact (h.modify _).congr rfl rfl rfl id
  next o =>
    dsimp only
    split
    · refine offerUrgent ?_
      exact (h.modify _).congr rfl rfl rfl id
    · refine freedRoutine ?_
      exact (h.modify _).congr rfl rfl rfl id

end State.FitsBut

end Sys2Proof.Machine
end

section
/-! PROOFS. The operations on one entry leave a directory that fits as it was (R27, R127 to R129, R141): claims, yields, publication requests, taking
values, orphaning. -/

namespace Sys2Proof.Machine

-- One proof is elaborated at a time: all that the text still has in flight here would not fit the check's memory limit.
set_option Elab.async false

/-! ## Entries that fit, by their ownership state -/

section Entry

variable {s : State} {e : Entry}

theorem Entry.Fits.consumer {v : View} (ho : e.ownership = .consumer v) (h : e.FitsAsConsumer s) : e.Fits s := (Entry.fits_consumer ho).mpr h

theorem Entry.Fits.claimant {v : View} {c : Bool} (ho : e.ownership = .claiming v c) (hst : s.sc.state = .active) (hr : e.decl.role ≠ .listen)
    (hs : e.slot.FitsClaimant e.windowTimer) : e.Fits s :=
  .of_station ((Entry.fitsStation_claiming ho).mpr ⟨hr, .inl ⟨hst, hs⟩⟩) (State.not_slotsMustBeClear hst)

theorem Entry.Fits.owner (ho : e.ownership = .own) (hst : s.sc.state = .active) (hr : e.decl.role ≠ .listen) (hs : e.slot.FitsOwner) : e.Fits s :=
  .of_station ((Entry.fitsStation_own ho).mpr ⟨hst, hr, hs⟩) (State.not_slotsMustBeClear hst)

theorem Entry.Fits.yields (ho : e.ownership = .yielding) (hst : s.sc.state = .active ∨ s.sc.state = .leaving) (hc : ¬ s.SlotsMustBeClear)
    (hr : e.decl.role ≠ .listen) (hs : e.slot.FitsYielding) : e.Fits s :=
  .of_station ((Entry.fitsStation_yielding ho).mpr ⟨hst, hr, hs⟩) hc

/-- An owner that fits: ACTIVE, not a LISTEN entry (R27). -/
theorem Entry.Fits.of_own (h : e.Fits s) (ho : e.ownership = .own) : s.sc.state = .active ∧ e.decl.role ≠ .listen ∧ e.slot.FitsOwner :=
  (Entry.fitsStation_own ho).mp h.1

theorem Entry.Fits.of_yielding (h : e.Fits s) (ho : e.ownership = .yielding) :
    (s.sc.state = .active ∨ s.sc.state = .leaving) ∧ ¬ s.SlotsMustBeClear ∧ e.decl.role ≠ .listen ∧ e.slot.FitsYielding := by
  obtain ⟨hst, hr, hs⟩ := (Entry.fitsStation_yielding ho).mp h.1
  exact ⟨hst, h.not_slotsMustBeClear (by rw [ho]; rfl), hr, hs⟩

theorem Entry.Fits.of_claiming (h : e.Fits s) {v : View} {c : Bool} (ho : e.ownership = .claiming v c) :
    e.decl.role ≠ .listen ∧ ¬ s.SlotsMustBeClear
      ∧ (s.sc.state = .active ∧ e.slot.FitsClaimant e.windowTimer ∨ s.sc.state = .leaving ∧ e.slot.FitsCancelled ∧ e.windowTimer = none) := by
  obtain ⟨hr, hs⟩ := (Entry.fitsStation_claiming ho).mp h.1
  exact ⟨hr, h.not_slotsMustBeClear (by rw [ho]; rfl), hs⟩

/-- With its slot NONE and its claim window stopped, any entry fits as a consumer. -/
theorem Entry.fitsAsConsumer_none (hs : e.slot = .none) (hw : e.windowTimer = none) : e.FitsAsConsumer s :=
  ⟨hw, by rw [hs]; trivial, fun _ => hs⟩

/-- A CLAIM in flight is voided by CANCEL: the entry fits as a consumer. -/
theorem Entry.fitsAsConsumer_cancelled {o : Outbound} (hs : e.slot = .inFlight o .cancel) (hk : o.kind = .claim) (hw : e.windowTimer = none)
    (hc : ¬ s.SlotsMustBeClear) : e.FitsAsConsumer s :=
  ⟨hw, by rw [hs]; exact .inr ⟨hk, rfl⟩, fun hmust => absurd hmust hc⟩

/-- The telegram of a claimant is a CLAIM in flight, or waits or is none. -/
theorem Entry.Fits.claim_inFlight (h : e.Fits s) {v : View} {c : Bool} (ho : e.ownership = .claiming v c) {o : Outbound} {f : FollowUp}
    (hs : e.slot = .inFlight o f) : o.kind = .claim ∧ e.windowTimer = none ∧ (f = .cancel ∨ f = .none ∧ s.sc.state = .active) := by
  obtain ⟨-, -, ⟨hst, hslot⟩ | ⟨-, ⟨o', hslot, hk⟩, hw⟩⟩ := h.of_claiming ho
  · rw [hs] at hslot
    obtain ⟨hk, hw, rfl | rfl⟩ := hslot
    · exact ⟨hk, hw, .inr ⟨rfl, hst⟩⟩
    · exact ⟨hk, hw, .inl rfl⟩
  · rw [hs] at hslot
    cases hslot
    exact ⟨hk, hw, .inl rfl⟩

/-- In LEAVING a claimant has a telegram in flight. -/
theorem Entry.Fits.claim_active (h : e.Fits s) {v : View} {c : Bool} (ho : e.ownership = .claiming v c)
    (hs : ∀ o, e.slot ≠ .inFlight o .cancel) : s.sc.state = .active := by
  obtain ⟨-, -, ⟨hst, -⟩ | ⟨-, ⟨o, hslot, -⟩, -⟩⟩ := h.of_claiming ho
  · exact hst
  · exact absurd hslot (hs o)

end Entry

/-- A withdrawal of a telegram that waits, or of none, leaves the slot NONE (R134). -/
theorem State.entry?_withdraw_waits {s : State} {i : Nat} {e : Entry} (h : s.entry? i = some e) (hf : ∀ o f, e.slot ≠ .inFlight o f) :
    (s.withdraw i).entry? i = some { e with slot := .none } := by
  rw [State.entry?_withdraw_same h]
  cases hs : e.slot with
  | inFlight o f => exact absurd hs (hf o f)
  | none | waiting _ | owed _ | queued _ => rfl

/-! ## The end of an operation on the entry in hand -/

namespace State.FitsBut

section Finish

variable {F : Nat → Entry → Prop} {b t : State} {i : Nat} {e : Entry} (h : b.FitsBut i F t) (he : t.entry? i = some e)

include h he

theorem put_fits {e' : Entry} (hf : e'.Fits b) : b.FitsBut 0 F (t.put i e') := (h.put he e').close (State.entry?_put_same he _) (h.fits i _ hf)

theorem append_fits {o : Outbound} (hf : ({ e with slot := .queued o } : Entry).Fits b) : b.FitsBut 0 F (t.append i o) := by
  obtain ⟨slot, hslot, ha⟩ := t.entry?_append_same i o
  rw [he] at ha
  refine (h.append o).close ha (h.fits i _ ?_)
  obtain rfl | rfl := hslot
  · exact hf
  · exact hf.owed

theorem requeue_fits {o : Outbound} (hf : ({ e with slot := .queued o } : Entry).Fits b) : b.FitsBut 0 F ((t.withdraw i).append i o) :=
  h.withdraw.append_fits (State.entry?_withdraw_same he) hf

theorem put_append {x : Entry} {o : Outbound} (hf : ({ x with slot := .queued o } : Entry).Fits b) : b.FitsBut 0 F ((t.put i x).append i o) :=
  (h.put he x).append_fits (State.entry?_put_same he _) hf

theorem put_requeue {x : Entry} {o : Outbound} (hf : ({ x with slot := .queued o } : Entry).Fits b) :
    b.FitsBut 0 F (((t.put i x).withdraw i).append i o) := (h.put he x).requeue_fits (State.entry?_put_same he _) hf

/-- An owner yields: its YIELD waits, or is the follow-up of what is in flight (R38). -/
theorem startYield (hst : b.sc.state = .active ∨ b.sc.state = .leaving) (hc : ¬ b.SlotsMustBeClear) (hr : e.decl.role ≠ .listen)
    (hs : e.slot.FitsOwner) (n : Option Byte) : b.FitsBut 0 F (t.startYield i n) := by
  have hq : ({ e.yielded with slot := .queued (yieldOut n) } : Entry).Fits b := .yields rfl hst hc hr rfl
  rw [State.startYield_eq he]
  cases hslot : e.slot with
  | none => exact h.put_append he hq
  | waiting o | owed o | queued o => exact h.put_requeue he hq
  | inFlight o f =>
    rw [hslot] at hs
    refine h.put_fits he (.yields rfl hst hc hr (.inr ⟨?_, n, rfl⟩))
    obtain ⟨hk, -⟩ | ⟨hk, -⟩ := hs
    · exact .inl hk
    · exact hk

/-- A claim that ends without success leaves a consumer. -/
theorem returnToPrior {prior : View} {changed : Bool} (ho : e.ownership = .claiming prior changed)
    (hf : (e.returned prior).FitsAsConsumer b) (outcome : ClaimOutcome) : b.FitsBut 0 F (t.returnToPrior i outcome) := by
  rw [State.returnToPrior_eq he ho]
  exact postRecords _ _ (h.put_fits he (.consumer rfl hf))

end Finish

end State.FitsBut

/-- From b, an operation has led to t, where the directory fits the station state, which b and t share. -/
abbrev State.Fitting (b t : State) : Prop := b.FitsBut 0 (fun _ => Entry.Fits b) t

/-- The same with the entry in hand left aside. -/
abbrev State.FittingBut (b : State) (i : Nat) (t : State) : Prop := b.FitsBut i (fun _ => Entry.Fits b) t

namespace State.Fitting

variable {b t : State} {i : Nat} {e : Entry}

/-! ## Publication requests -/

section Owner

variable (h : b.Fitting t) (he : t.entry? i = some e) (ho : e.ownership = .own)

include h he ho

theorem put_owner {slot : Slot} (hs : slot.FitsOwner) : b.Fitting (t.put i { e with slot := slot }) := by
  obtain ⟨hst, hr, -⟩ := (h.entry he).of_own ho
  exact (h.but i).put_fits he (.owner ho hst hr hs)

theorem append_publish {o : Outbound} (hk : o.kind = .publish) : b.Fitting (t.append i o) := by
  obtain ⟨hst, hr, -⟩ := (h.entry he).of_own ho
  exact (h.but i).append_fits he (.owner ho hst hr hk)

theorem requeue_publish {o : Outbound} (hk : o.kind = .publish) : b.Fitting ((t.withdraw i).append i o) := by
  obtain ⟨hst, hr, -⟩ := (h.entry he).of_own ho
  exact (h.but i).requeue_fits he (.owner ho hst hr hk)

theorem publishSpaced {o : Outbound} (hk : o.kind = .publish) : b.Fitting (t.publishSpaced i e o) := by
  rw [State.publishSpaced_eq he]
  split
  next => exact h.append_publish he ho hk
  next => exact h.put_owner (slot := .waiting o) he ho hk

theorem requestChange : b.Fitting (t.requestChange i) := by
  obtain ⟨-, -, hs⟩ := (h.entry he).of_own ho
  rw [State.requestChange_eq he]
  cases hslot : e.slot with
  | none => exact h.publishSpaced he ho rfl
  | waiting o | owed o | queued o =>
    rw [hslot] at hs
    exact h.put_owner he ho hs
  | inFlight o f =>
    rw [hslot] at hs
    cases f with
    | none =>
      obtain ⟨hk, -⟩ | ⟨-, cls, hf⟩ := hs
      · exact h.put_owner he ho (.inr ⟨.inl hk, _, rfl⟩)
      · cases hf
    | publish _ | yield _ | cancel => exact h

theorem requestAnswer : b.Fitting (t.requestAnswer i) := by
  obtain ⟨-, -, hs⟩ := (h.entry he).of_own ho
  rw [State.requestAnswer_eq he]
  cases hslot : e.slot with
  | none => exact h.publishSpaced he ho rfl
  | waiting o | owed o | queued o =>
    rw [hslot] at hs
    exact h.put_owner he ho hs
  | inFlight o f => exact h

theorem defend : b.Fitting (t.defend i) := by
  obtain ⟨-, -, hs⟩ := (h.entry he).of_own ho
  rw [State.defend_eq he]
  cases hslot : e.slot with
  | none => exact h.append_publish he ho rfl
  | waiting o =>
    rw [hslot] at hs
    exact h.requeue_publish he ho hs
  | owed o | queued o =>
    rw [hslot] at hs
    dsimp only
    split
    · exact h.put_owner he ho hs
    · exact h.requeue_publish he ho hs
  | inFlight o f => exact h

theorem startYield (n : Option Byte) : b.Fitting (t.startYield i n) := by
  obtain ⟨hst, hr, hs⟩ := (h.entry he).of_own ho
  exact (h.but i).startYield he (.inl hst) (State.not_slotsMustBeClear hst) hr hs n

end Owner

/-! ## Claims -/

/-- A claim starts in ACTIVE, at an entry that is no LISTEN entry (R27, R29). -/
theorem startClaim (h : b.Fitting t) (hst : b.sc.state = .active) (hr : ∀ e, t.entry? i = some e → e.decl.role ≠ .listen) :
    b.Fitting (t.startClaim i) := by
  cases he : t.entry? i with
  | none =>
    unfold State.startClaim
    rwa [State.withEntry_none he]
  | some e =>
    have hrole := hr e he
    cases ho : e.ownership with
    | claiming _ _ | own | yielding =>
      unfold State.startClaim
      rw [State.withEntry_some he, ho]
      exact h
    | consumer v =>
      obtain ⟨hw, hs, -⟩ := (Entry.fits_consumer ho).mp (h.entry he)
      have hq : ({ e.claimant v with slot := .queued claimOut } : Entry).Fits b := .claimant rfl hst hrole ⟨rfl, hw⟩
      rw [State.startClaim_eq he ho]
      cases e.slot with
      | none => exact (h.but i).put_append he hq
      | waiting _ | owed _ | queued _ => exact (h.but i).put_requeue he hq
      | inFlight o f =>
        dsimp only
        split
        next hcancel => exact (h.but i).put_fits he (.claimant rfl hst hrole ⟨hcancel.1, hw, .inl rfl⟩)
        next => exact h

/-- A change of an entry that its fit does not look at. -/
theorem modify (h : b.Fitting t) (i : Nat) {f : Entry → Entry} (hf : ∀ e, e.Fits b → (f e).Fits b) : b.Fitting (t.modify i f) := by
  cases he : t.entry? i with
  | none =>
    refine { h with state := ?_, clearNotice := ?_, presence := ?_, entries := fun j e _ hj => ?_ }
    · cases i <;> exact h.state
    · cases i <;> exact h.clearNotice
    · cases i <;> exact h.presence
    · by_cases hji : j = i
      · subst hji
        rw [State.entry?_modify_same, he] at hj
        cases hj
      · exact h.entry ((t.entry?_modify_other hji f).symm.trans hj)
  | some e =>
    rw [State.modify_eq_put he]
    exact (h.but i).put_fits he (hf e (h.entry he))

theorem startTakeover (h : b.Fitting t) (i : Nat) : b.Fitting (t.startTakeover i) := h.modify i fun _ he => he

theorem takeoverLogic (h : b.Fitting t) (i : Nat) : b.Fitting (t.takeoverLogic i) := by
  refine h.withEntry fun e he => ?_
  split
  next hst =>
    have hact : b.Fitting (if e.decl.role = .home then t.startClaim i else if e.decl.takesOver then t.startTakeover i else t) := by
      split
      next hhome =>
        refine h.startClaim (h.state.symm.trans hst) fun x hx => ?_
        obtain rfl := Option.some.inj (he.symm.trans hx)
        rw [hhome]
        exact nofun
      next =>
        split
        · exact h.startTakeover i
        · exact h
    split
    next => exact hact
    next => exact hact
    all_goals exact h
  next => exact h

theorem takeoverIfOrphaned (h : b.Fitting t) (i : Nat) : b.Fitting (t.takeoverIfOrphaned i) := by
  refine h.withEntry fun e _ => ?_
  split
  next => exact h.takeoverLogic i
  all_goals exact h

theorem claimIfHomeOrphaned (h : b.Fitting t) (i : Nat) : b.Fitting (t.claimIfHomeOrphaned i) := by
  refine h.withEntry fun e _ => ?_
  split
  · exact h.takeoverIfOrphaned i
  · exact h

section Claimant

variable (h : b.Fitting t) (he : t.entry? i = some e) {prior : View} {changed : Bool} (ho : e.ownership = .claiming prior changed)

include h he ho

/-- A claimant whose claim is not cancelled wins in ACTIVE (R36). -/
theorem win (hs : ∀ o, e.slot ≠ .inFlight o .cancel) : b.Fitting (t.win i) := by
  have hst := (h.entry he).claim_active ho hs
  obtain ⟨hr, -⟩ := (h.entry he).of_claiming ho
  have hq : ({ e.won with slot := .queued (publishOf .urgent false false) } : Entry).Fits b := .owner rfl hst hr rfl
  rw [State.win_eq he]
  refine FitsBut.post ?_ _ _ _ _
  cases hslot : e.slot with
  | none => exact (h.but i).put_append he hq
  | waiting _ | owed _ | queued _ => exact (h.but i).put_requeue he hq
  | inFlight o f =>
    obtain ⟨hk, -⟩ := (h.entry he).claim_inFlight ho hslot
    exact (h.but i).put_fits he (.owner rfl hst hr (.inr ⟨.inr hk, _, rfl⟩))

theorem put_claiming (p : View) (c : Bool) : b.Fitting (t.put i { e with ownership := .claiming p c }) := by
  obtain ⟨hr, hc, hs⟩ := (h.entry he).of_claiming ho
  exact (h.but i).put_fits he (.of_station ((Entry.fitsStation_claiming rfl).mpr ⟨hr, hs⟩) hc)

/-- A claim voided: the CLAIM that waits is gone, that in flight is cancelled, and the entry fits as a consumer once its window stops. -/
theorem voided_fits {x : Entry} (hx : x.slot = e.slot.voided .cancel) (hw : x.windowTimer = none) : x.FitsAsConsumer b := by
  obtain ⟨-, hc, -⟩ := (h.entry he).of_claiming ho
  cases hslot : e.slot with
  | none | waiting _ | owed _ | queued _ => exact Entry.fitsAsConsumer_none (by rw [hx, hslot]; rfl) hw
  | inFlight o f =>
    obtain ⟨hk, -⟩ := (h.entry he).claim_inFlight ho hslot
    exact Entry.fitsAsConsumer_cancelled (by rw [hx, hslot]; rfl) hk hw hc

theorem loseToClaim : b.Fitting (t.loseToClaim i) := by
  obtain ⟨slot, hw⟩ := State.exists_entry?_withdrawWaiting he
  have hwithdrawn : b.FittingBut i (t.withdrawWaiting i e.slot) := by
    unfold State.withdrawWaiting
    split
    · exact h.but i
    · exact h.but i
    all_goals exact (h.but i).withdraw
  rw [State.loseToClaim_eq he]
  exact (hwithdrawn.put_fits hw (.consumer rfl (h.voided_fits he ho rfl rfl))).post _ _ _ _

end Claimant

end State.Fitting

/-- The cancellation of a claim: at once with a consumer left, or by the CANCEL of the CLAIM in flight (R45, R54). -/
theorem State.FitsBut.cancelClaim {F : Nat → Entry → Prop} {b t : State} {i : Nat} {e : Entry} (h : b.FitsBut i F t) (he : t.entry? i = some e)
    {prior : View} {changed : Bool} (ho : e.ownership = .claiming prior changed) (hst : b.sc.state = .active ∨ b.sc.state = .leaving)
    (hc : ¬ b.SlotsMustBeClear) (hr : e.decl.role ≠ .listen) (hs : e.slot.FitsClaimant e.windowTimer)
    (htake : ∀ u : State, b.FitsBut 0 F u → b.FitsBut 0 F (u.takeoverIfOrphaned i)) : b.FitsBut 0 F (t.cancelClaim i) := by
  have hatOnce : (∀ o f, e.slot ≠ .inFlight o f) → b.FitsBut 0 F (((t.withdraw i).returnToPrior i .cancelled).takeoverIfOrphaned i) := by
    intro hwaits
    exact htake _ (h.withdraw.returnToPrior (State.entry?_withdraw_waits he hwaits) ho (Entry.fitsAsConsumer_none rfl rfl) _)
  rw [State.cancelClaim_eq he]
  cases hslot : e.slot with
  | none | waiting _ | owed _ | queued _ => exact hatOnce (by simp [hslot])
  | inFlight o f =>
    rw [hslot] at hs
    obtain ⟨hk, hw, -⟩ := hs
    refine h.put_fits he (.of_station ((Entry.fitsStation_claiming (e := { e with slot := .inFlight o .cancel }) ho).mpr ⟨hr, ?_⟩) hc)
    obtain hst | hst := hst
    · exact .inl ⟨hst, hk, hw, .inr rfl⟩
    · exact .inr ⟨hst, ⟨o, rfl, hk⟩, hw⟩

end Sys2Proof.Machine
end

section
/-! PROOFS. What OD takes from the other blocks and from its timers leaves a directory that fits as it was (R27, R127 to R129, R141): telegrams, notices,
outcome reports, expiries, the join actions. -/

namespace Sys2Proof.Machine

-- One proof is elaborated at a time: all that the text still has in flight here would not fit the check's memory limit.
set_option Elab.async false

/-- The four ownership states. -/
theorem Ownership.cases (o : Ownership) : (∃ v, o = .consumer v) ∨ (∃ v c, o = .claiming v c) ∨ o = .own ∨ o = .yielding := by
  cases o <;> simp

namespace State.FitsBut

variable {F : Nat → Entry → Prop} {b t : State} {i : Nat} {e : Entry}

/-! ## Values -/

/-- What posts records and counts alone. -/
theorem refuseValue (h : b.FitsBut 0 F t) (i : Nat) (m : Telegram) (rs : List (EventKind × Byte)) : b.FitsBut 0 F (t.refuseValue i m rs) := by
  cases he : t.entry? i with
  | none =>
    unfold State.refuseValue
    rwa [State.withEntry_none he]
  | some e =>
    rw [State.refuseValue_eq he]
    exact ((postRecords e rs h).bump _).post _ _ _ _

section InHand

variable (h : b.FitsBut i F t) (he : t.entry? i = some e) (hf : e.FitsAsConsumer b)

include h he hf

/-- An entry that would fit as a consumer fits once its value is taken. -/
theorem acceptValue (m : Telegram) (sameRefresh : Bool) (rs : List (EventKind × Byte)) : b.FitsBut 0 F (t.acceptValue i m sameRefresh rs) := by
  rw [State.acceptValue_eq he]
  refine postRecords _ _ ?_
  have hput : (t.put i (e.accepted m)).entry? i = some (e.accepted m) := State.entry?_put_same he _
  by_cases ha : (e.accepted m).slot.Asks
  · rw [State.withdrawQuery_asks hput ha]
    have hwaits : ∀ o f, (e.accepted m).slot ≠ .inFlight o f := by
      obtain ⟨o, -, hs | hs⟩ := ha <;> rw [hs] <;> exact nofun
    exact (h.put he _).withdraw.close (State.entry?_withdraw_waits hput hwaits)
      (h.fits i _ (Entry.Fits.consumer (e := { e.accepted m with slot := .none }) rfl (Entry.fitsAsConsumer_none rfl hf.1)))
  · rw [State.withdrawQuery_other hput ha]
    exact h.put_fits he (Entry.Fits.consumer (e := e.accepted m) rfl hf)

theorem adoptOwner (m : Telegram) (deadline : Timer) (rs : List (EventKind × Byte)) : b.FitsBut 0 F (t.adoptOwner i m deadline rs) := by
  by_cases hl : m.length.toNat ≤ e.decl.maxLength
  · rw [State.adoptOwner_fits he hl]
    exact h.acceptValue he hf _ _ _
  · rw [State.adoptOwner_refuses he hl]
    refine refuseValue (h.put_fits he ?_) i _ _
    exact .consumer rfl hf

end InHand

theorem withdrawWaiting (h : b.FitsBut i F t) (slot : Slot) : b.FitsBut i F (t.withdrawWaiting i slot) := by
  cases slot with
  | none | inFlight _ _ => exact h
  | waiting _ | owed _ | queued _ => exact h.withdraw

end State.FitsBut

namespace State.Fitting

variable {b t : State} {i : Nat} {e : Entry}

/-! ## Telegrams and notices -/

section Consumer

variable (h : b.Fitting t) (he : t.entry? i = some e) {v : View} (ho : e.ownership = .consumer v)

include h he ho

theorem asConsumer : e.FitsAsConsumer b := (Entry.fits_consumer ho).mp (h.entry he)

/-- A consumer stays one. -/
theorem put_consumer {x : Entry} {w : View} (hx : x.ownership = .consumer w) (hs : x.slot = e.slot) (hw : x.windowTimer = e.windowTimer) :
    b.Fitting (t.put i x) := by
  obtain ⟨h1, h2, h3⟩ := h.asConsumer he ho
  exact (h.but i).put_fits he (.consumer hx ⟨hw.trans h1, hs ▸ h2, hs ▸ h3⟩)

theorem takeFromOwner (m : Telegram) (any : Bool) : b.Fitting (t.takeFromOwner i m any) := by
  have haccept := fun same => (h.but i).acceptValue he (h.asConsumer he ho) m same []
  by_cases hl : m.length.toNat ≤ e.decl.maxLength
  · cases any with
    | true =>
      rw [State.takeFromOwner_any he hl (.inl rfl)]
      exact haccept false
    | false =>
      cases hv : e.version with
      | none =>
        rw [State.takeFromOwner_any he hl (.inr hv)]
        exact haccept false
      | some held =>
        rw [State.takeFromOwner_held he hl hv]
        split
        · exact haccept false
        · exact haccept true
        · refine FitsBut.bump ?_ _
          exact h.put_consumer he ho rfl rfl rfl
  · rw [State.takeFromOwner_refuses he hl]
    refine FitsBut.refuseValue ?_ i _ _
    exact h.put_consumer he ho rfl rfl rfl

theorem publishAtConsumer (m : Telegram) (view : View) : b.Fitting (t.publishAtConsumer i m view) := by
  have hlapsed : (view = .unknown ∨ ∃ o k, view = .orphaned o k) → b.Fitting (t.publishAtConsumer i m view) := fun hv => by
    have hstopped := h.put_consumer (x := { e with takeoverTimer := none }) he ho ho rfl rfl
    rw [State.publishAtConsumer_lapsed he hv]
    exact (hstopped.but i).adoptOwner (State.entry?_put_same he _) (hstopped.asConsumer (State.entry?_put_same he _) ho) _ _ _
  cases view with
  | unknown => exact hlapsed (.inl rfl)
  | orphaned o k => exact hlapsed (.inr ⟨o, k, rfl⟩)
  | foreign owner rank any =>
    by_cases hsource : owner = m.source
    · subst hsource
      rw [State.publishAtConsumer_owner he]
      exact h.takeFromOwner he ho m any
    · rw [State.publishAtConsumer_other he hsource]
      split
      · exact (h.but i).adoptOwner he (h.asConsumer he ho) _ _ _
      · exact h

/-- An entry orphaned, with the takeover logic that follows. -/
theorem orphanEntry (view : View) : b.Fitting (t.orphanEntry i view) := by
  rw [State.orphanEntry_eq he]
  refine takeoverLogic (FitsBut.post ?_ _ _ _ _) i
  exact h.put_consumer he ho rfl rfl rfl

theorem followSuccessor (n : Byte) : b.Fitting (t.followSuccessor i n) := by
  rw [State.followSuccessor_eq he]
  refine FitsBut.post ?_ _ _ _ _
  exact h.put_consumer he ho rfl rfl rfl

theorem yieldAtConsumer (m : Telegram) (view : View) : b.Fitting (t.yieldAtConsumer i m view) := by
  have hsuccessor : ∀ u : State, b.Fitting u → b.Fitting (match t.validSuccessor m with
      | some n => t.followSuccessor i n
      | none => u) := fun u hu => by
    cases t.validSuccessor m with
    | some n => exact h.followSuccessor he ho n
    | none => exact hu
  unfold State.yieldAtConsumer
  split
  next => exact h
  next =>
    split
    · exact hsuccessor _ (h.orphanEntry he ho _)
    · exact h
  next =>
    split
    · exact hsuccessor _ h
    · exact h

end Consumer

theorem publishAtEntry (h : b.Fitting t) (he : t.entry? i = some e) (m : Telegram) : b.Fitting (t.publishAtEntry i e m) := by
  obtain ⟨slot, hw⟩ := State.exists_entry?_withdrawWaiting he
  unfold State.publishAtEntry
  cases ho : e.ownership with
  | consumer view => exact h.publishAtConsumer he ho m view
  | yielding => exact h
  | claiming prior changed =>
    dsimp only
    rw [State.publishAtClaimant_eq he]
    split
    · exact h
    · refine ((h.but i).withdrawWaiting e.slot |>.put hw _).adoptOwner (State.entry?_put_same hw _) ?_ _ _ _
      exact h.voided_fits he ho rfl rfl
  | own =>
    dsimp only
    rw [State.publishAtOwner_eq he]
    split
    · refine ((h.but i).withdrawWaiting e.slot |>.put hw _).adoptOwner (State.entry?_put_same hw _) ?_ _ _ _
      obtain ⟨hst, -, hs⟩ := (h.entry he).of_own ho
      refine ⟨rfl, ?_, fun hc => absurd hc (State.not_slotsMustBeClear hst)⟩
      show (e.slot.voided .none).FitsConsumer
      cases hslot : e.slot with
      | none | waiting _ | owed _ | queued _ => trivial
      | inFlight o f =>
        rw [hslot] at hs
        refine .inl ⟨?_, rfl⟩
        obtain ⟨hk, -⟩ | ⟨hk, -⟩ := hs
        · exact .inr (.inl hk)
        · exact .inr hk
    · exact h.defend he ho

theorem claimAtEntry (h : b.Fitting t) (he : t.entry? i = some e) (m : Telegram) : b.Fitting (t.claimAtEntry i e m) := by
  by_cases hl : t.sc.state = .leaving
  · rw [State.claimAtEntry_leaving hl]
    exact h
  · cases ho : e.ownership with
    | consumer v =>
      rw [State.claimAtEntry_consumer hl i ho]
      split
      · exact h.startTakeover i
      · exact h
    | claiming prior changed =>
      rw [State.claimAtEntry_claiming hl i ho]
      split
      · exact h.loseToClaim he ho
      · exact h
    | own =>
      by_cases hback : m.rank = 0#4 ∧ e.decl.rank ≠ 0#4
      · rw [State.claimAtEntry_handback hl i ho hback.1 hback.2]
        exact h.startYield he ho _
      · rw [State.claimAtEntry_defence hl i ho (by rwa [Decidable.not_and_iff_not_or_not, ne_eq, Decidable.not_not] at hback)]
        exact h.defend he ho
    | yielding =>
      rw [State.claimAtEntry_yielding hl i ho]
      exact h

theorem yieldAtEntry (h : b.Fitting t) (he : t.entry? i = some e) (m : Telegram) : b.Fitting (t.yieldAtEntry i e m) := by
  unfold State.yieldAtEntry
  cases ho : e.ownership with
  | consumer view => exact h.yieldAtConsumer he ho m view
  | own | yielding => exact h
  | claiming prior changed =>
    dsimp only
    by_cases hn : m.successor = some t.ownNumber ∧ ¬ ∃ o, e.slot = .inFlight o .cancel
    · rw [State.yieldAtClaimant_wins he hn.1 hn.2]
      exact h.win he ho fun o hs => hn.2 ⟨o, hs⟩
    · rw [State.yieldAtClaimant_updates he (by rwa [Classical.not_and_iff_not_or_not, Classical.not_not] at hn) rfl]
      exact h.put_claiming he ho _ _

theorem queryAtEntry (h : b.Fitting t) (he : t.entry? i = some e) (m : Telegram) : b.Fitting (t.queryAtEntry i e m) := by
  unfold State.queryAtEntry
  split
  next ho =>
    split
    · exact h
    · exact h.requestAnswer he ho
  all_goals exact h

theorem noticeAtEntry (h : b.Fitting t) (n : Byte) (i : Nat) : b.Fitting (t.noticeAtEntry n i) := by
  refine h.withEntry fun e he => ?_
  split
  next view ho =>
    split
    · exact h.orphanEntry he ho view
    · exact h
  next prior changed ho =>
    split
    · rw [State.modify_eq_put he]
      exact h.put_claiming he ho _ _
    · exact h
  all_goals exact h

/-- What leaves the directory fitting at each index does so over all of them. -/
theorem eachEntry {f : State → Nat → State} (hf : ∀ t i, b.Fitting t → b.Fitting (f t i)) (h : b.Fitting t) : b.Fitting (t.eachEntry f) := by
  have hall : ∀ (l : List Nat) (u : State), b.Fitting u → b.Fitting (l.foldl f u) := fun l => by
    induction l with
    | nil => exact fun _ => id
    | cons i l ih => exact fun u hu => ih _ (hf u i hu)
  exact hall _ _ h

theorem noticeAtOd (h : b.Fitting t) (n : Byte) : b.Fitting (t.noticeAtOd n) := h.eachEntry fun _ i hu => hu.noticeAtEntry n i

theorem noticesTaken (h : b.Fitting t) : b.Fitting t.noticesTaken := by
  have hall : ∀ (l : List Notice) (u : State), b.Fitting u → b.Fitting (l.foldl (fun s n => s.noticeAtOd n.station) u) := fun l => by
    induction l with
    | nil => exact fun _ => id
    | cons n l ih => exact fun u hu => ih _ (hu.noticeAtOd _)
  exact hall _ _ (h.congr rfl rfl rfl id)

theorem joinSweep (h : b.Fitting t) : b.Fitting t.joinSweep := by
  have hall : ∀ (l : List Nat) (u : State), b.Fitting u → b.Fitting (l.foldl State.sweepRow u) := fun l => by
    induction l with
    | nil => exact fun _ => id
    | cons n l ih =>
      refine fun u hu => ih _ ?_
      obtain ⟨_, hrow⟩ := State.Outside.sweepRow u n
      rw [hrow]
      exact hu.congr rfl rfl rfl id
  exact (hall _ _ h).noticesTaken

/-! ## Outcomes -/

section Outcome

variable {o : Outbound} {f : FollowUp} (h : b.Fitting t) (he : t.entry? i = some e) (hs : e.slot = .inFlight o f)

include h he hs

/-- The rule of the kind and the follow-up at a consumer whose slot is NONE again. -/
theorem outcome_consumer {v : View} (ho : e.ownership = .consumer v) (outcome : TxOutcome) :
    b.Fitting (((t.put i { e with slot := .none }).outcomeByKind i e o f outcome).serveFollowUp i f) := by
  have hput : (t.put i { e with slot := .none }).entry? i = some { e with slot := .none } := State.entry?_put_same he _
  obtain ⟨hw, hslot, -⟩ := h.asConsumer he ho
  have hfits : b.Fitting (t.put i { e with slot := .none }) := (h.but i).put_fits he (.consumer ho (Entry.fitsAsConsumer_none rfl hw))
  have hsame : (t.put i { e with slot := .none }).outcomeByKind i e o f outcome = t.put i { e with slot := .none } := by
    cases hk : o.kind with
    | query => exact State.outcomeByKind_query _ i hk e f outcome
    | publish =>
      rw [State.outcomeByKind_publish hput hk, Entry.publishOutcome_consumer (e := { e with slot := .none }) ho, State.put_put]
    | claim => exact (State.outcomeByKind_claim _ i hk e f outcome).trans (State.claimOutcome_ended _ i (by simp [ho]) f outcome)
    | yield =>
      rw [hs] at hslot
      simp [Slot.FitsConsumer, hk] at hslot
  rw [hsame, State.serveFollowUp_consumer hput ho]
  exact hfits

theorem outcome_claiming {prior : View} {changed : Bool} (ho : e.ownership = .claiming prior changed) (outcome : TxOutcome) :
    b.Fitting (((t.put i { e with slot := .none }).outcomeByKind i e o f outcome).serveFollowUp i f) := by
  have hput : (t.put i { e with slot := .none }).entry? i = some { e with slot := .none } := State.entry?_put_same he _
  obtain ⟨hk, hw, hcases⟩ := (h.entry he).claim_inFlight ho hs
  obtain ⟨hr, -⟩ := (h.entry he).of_claiming ho
  have hreturn : ∀ x, b.Fitting ((t.put i { e with slot := .none }).returnToPrior i x) := fun x =>
    ((h.but i).put he _).returnToPrior hput ho (Entry.fitsAsConsumer_none rfl rfl) x
  rw [State.outcomeByKind_claim _ i hk, State.claimOutcome_claiming _ i ho]
  obtain rfl | ⟨rfl, hst⟩ := hcases
  · rw [State.serveFollowUp_cancel, if_pos rfl]
    exact (hreturn _).takeoverIfOrphaned i
  · rw [State.serveFollowUp_none, if_neg nofun]
    cases outcome with
    | abandoned => exact (hreturn _).takeoverLogic i
    | sent =>
      rw [State.modify_eq_put hput, State.put_put]
      exact (h.but i).put_fits he (.claimant ho hst hr trivial)

theorem outcome_own (ho : e.ownership = .own) (outcome : TxOutcome) :
    b.Fitting (((t.put i { e with slot := .none }).outcomeByKind i e o f outcome).serveFollowUp i f) := by
  have hput : ∀ x, (t.put i x).entry? i = some x := State.entry?_put_same he
  obtain ⟨hst, hr, hslot⟩ := (h.entry he).of_own ho
  rw [hs] at hslot
  have hrule : ∃ x : Entry, (t.put i { e with slot := .none }).outcomeByKind i e o f outcome = t.put i x
      ∧ x.ownership = .own ∧ x.slot = .none ∧ x.decl = e.decl := by
    have hkind : o.kind = .publish ∨ o.kind = .claim := hslot.elim (fun hk => .inl hk.1) (·.1)
    obtain hk | hk := hkind
    · refine ⟨Entry.publishOutcome { e with slot := .none } outcome, ?_, ?_⟩
      · rw [State.outcomeByKind_publish (hput _) hk, State.put_put]
      · rw [Entry.publishOutcome_own (e := { e with slot := .none }) ho]
        cases outcome <;> exact ⟨ho, rfl, rfl⟩
    · exact ⟨_, (State.outcomeByKind_claim _ i hk e f outcome).trans (State.claimOutcome_ended _ i (by simp [ho]) f outcome), ho, rfl, rfl⟩
  obtain ⟨x, hx, hxo, hxs, hxd⟩ := hrule
  have hfits : b.Fitting (t.put i x) := (h.but i).put_fits he (.owner hxo hst (hxd ▸ hr) (by rw [hxs]; trivial))
  rw [hx]
  obtain ⟨-, rfl⟩ | ⟨-, cls, rfl⟩ := hslot
  · rw [State.serveFollowUp_none]
    exact hfits
  · rw [State.serveFollowUp_publish (hput x) hxo]
    exact hfits.publishSpaced (hput x) hxo rfl

theorem outcome_yielding (ho : e.ownership = .yielding) (outcome : TxOutcome) :
    b.Fitting (((t.put i { e with slot := .none }).outcomeByKind i e o f outcome).serveFollowUp i f) := by
  have hput : ∀ x, (t.put i x).entry? i = some x := State.entry?_put_same he
  obtain ⟨hst, hc, hr, hslot⟩ := (h.entry he).of_yielding ho
  rw [hs] at hslot
  obtain ⟨hk, rfl⟩ | ⟨hkind, n, rfl⟩ := hslot
  · rw [State.serveFollowUp_none, State.outcomeByKind_yield _ i hk ho]
    cases o.successor with
    | some n =>
      dsimp only
      rw [State.handedBack_eq (hput _), State.put_put]
      exact (FitsBut.post ((h.but i).put_fits he (.consumer rfl (Entry.fitsAsConsumer_none rfl rfl))) _ _ _ _).post _ _ _ _
    | none =>
      have hfits : b.Fitting ((t.put i { e with slot := .none }).put i (Entry.givenUp { e with slot := .none })) := by
        rw [State.put_put]
        exact (h.but i).put_fits he (.consumer rfl (Entry.fitsAsConsumer_none rfl rfl))
      dsimp only
      rw [State.released_eq (hput _)]
      split
      · exact hfits
      · exact hfits.post _ _ _ _
  · have hrule : ∃ x : Entry, (t.put i { e with slot := .none }).outcomeByKind i e o (.yield n) outcome = t.put i x
        ∧ x.ownership = .yielding ∧ x.decl = e.decl := by
      obtain hk | hk := hkind
      · refine ⟨Entry.publishOutcome { e with slot := .none } outcome, ?_, ?_⟩
        · rw [State.outcomeByKind_publish (hput _) hk, State.put_put]
        · rw [Entry.publishOutcome_yielding (e := { e with slot := .none }) ho]
          cases outcome <;> exact ⟨ho, rfl⟩
      · exact ⟨_, (State.outcomeByKind_claim _ i hk e _ outcome).trans (State.claimOutcome_ended _ i (by simp [ho]) _ outcome), ho, rfl⟩
    obtain ⟨x, hx, hxo, hxd⟩ := hrule
    rw [hx, State.serveFollowUp_yield (hput x) hxo]
    exact (h.but i).put_append he (.yields hxo hst hc (hxd ▸ hr) rfl)

end Outcome

theorem outcomeAtEntry (h : b.Fitting t) (i : Nat) (outcome : TxOutcome) : b.Fitting (t.outcomeAtEntry i outcome) := by
  cases he : t.entry? i with
  | none =>
    unfold State.outcomeAtEntry
    rwa [State.withEntry_none he]
  | some e =>
    cases hs : e.slot with
    | none | waiting _ | owed _ | queued _ =>
      unfold State.outcomeAtEntry
      rw [State.withEntry_some he, hs]
      exact h
    | inFlight o f =>
      rw [State.outcomeAtEntry_eq he hs]
      refine claimIfHomeOrphaned ?_ i
      obtain ⟨v, ho⟩ | ⟨prior, changed, ho⟩ | ho | ho := e.ownership.cases
      · exact h.outcome_consumer he hs ho outcome
      · exact h.outcome_claiming he hs ho outcome
      · exact h.outcome_own he hs ho outcome
      · exact h.outcome_yielding he hs ho outcome

/-! ## Expiries -/

theorem atDue (h : b.Fitting t) {timer : Entry → Timer} {k : Entry → State}
    (hk : ∀ e, t.entry? i = some e → timer e = some 0 → b.Fitting (k e)) : b.Fitting (t.atDue i timer k) := by
  refine h.withEntry fun e he => ?_
  split
  next hdue => exact hk e he (of_decide_eq_true hdue)
  next => exact h

theorem freshnessExpired (h : b.Fitting t) (i : Nat) : b.Fitting (t.freshnessExpired i) := by
  refine h.atDue fun e _ _ => ?_
  have hstale : b.Fitting (t.modify i fun e => { e with freshness := .stale, freshTimer := none }) := h.modify i fun _ hf => hf
  dsimp only
  split
  · exact hstale
  · exact hstale.postEntry _ _ _

theorem refreshExpired (h : b.Fitting t) (i : Nat) : b.Fitting (t.refreshExpired i) := by
  refine h.atDue fun e he _ => ?_
  split
  next => exact h
  next ho =>
    have hown := Classical.not_not.mp ho
    split
    next => exact h.modify i fun _ hf => hf
    next =>
      split
      · exact modify (FitsBut.bump h _) i fun _ hf => hf
      · have hstopped : b.Fitting (t.modify i fun e => { e with refreshTimer := none }) := h.modify i fun _ hf => hf
        rw [State.modify_eq_put he] at hstopped ⊢
        exact hstopped.publishSpaced (State.entry?_put_same he _) hown rfl

/-- A telegram that waits for spacing is the PUBLISH of an owner (R62). -/
theorem waiting_publish (h : b.Fitting t) (he : t.entry? i = some e) {o : Outbound} (hs : e.slot = .waiting o) :
    e.ownership = .own ∧ o.kind = .publish := by
  have hfits := h.entry he
  obtain ⟨v, ho⟩ | ⟨prior, changed, ho⟩ | ho | ho := e.ownership.cases
  · obtain ⟨-, hslot, -⟩ := h.asConsumer he ho
    rw [hs] at hslot
    exact hslot.elim
  · obtain ⟨-, -, ⟨-, hslot⟩ | ⟨-, ⟨o', hslot, -⟩, -⟩⟩ := hfits.of_claiming ho
    · rw [hs] at hslot
      exact hslot.elim
    · rw [hs] at hslot
      cases hslot
  · obtain ⟨-, -, hslot⟩ := hfits.of_own ho
    rw [hs] at hslot
    exact ⟨ho, hslot⟩
  · obtain ⟨-, -, -, hslot⟩ := hfits.of_yielding ho
    rw [hs] at hslot
    exact hslot.elim

theorem spacingExpired (h : b.Fitting t) (i : Nat) : b.Fitting (t.spacingExpired i) := by
  refine h.atDue fun e he _ => ?_
  have hstopped : b.Fitting (t.modify i fun e => { e with spacingTimer := none }) := h.modify i fun _ hf => hf
  have he' : (t.modify i fun e => { e with spacingTimer := none }).entry? i = some { e with spacingTimer := none } := by
    rw [State.entry?_modify_same, he]
    rfl
  dsimp only
  split
  next o hs =>
    obtain ⟨ho, hk⟩ := h.waiting_publish he hs
    exact hstopped.append_publish he' ho hk
  all_goals exact hstopped

theorem windowExpired (h : b.Fitting t) (i : Nat) : b.Fitting (t.windowExpired i) := by
  refine h.atDue fun e he hw => ?_
  split
  next prior changed ho =>
    refine h.win he ho fun o hs => ?_
    obtain ⟨-, hnone, -⟩ := (h.entry he).claim_inFlight ho hs
    rw [hnone] at hw
    cases hw
  all_goals exact h

theorem takeoverExpired (h : b.Fitting t) (i : Nat) : b.Fitting (t.takeoverExpired i) := by
  refine h.atDue fun e he _ => ?_
  split
  next hact =>
    have hclaim : b.Fitting (if e.slot.blocksClaim then t.startTakeover i else t.startClaim i) := by
      split
      · exact h.startTakeover i
      · refine h.startClaim (h.state.symm.trans hact.1) fun x hx => ?_
        obtain rfl := Option.some.inj (he.symm.trans hx)
        rw [((Decl.takesOver_iff _).mp hact.2).1]
        exact nofun
    split
    next => exact hclaim
    next => exact hclaim
    all_goals exact h
  next => exact h

/-! ## The join actions -/

theorem joinEntry (hst : b.sc.state = .active) (h : b.Fitting t) (i : Nat) : b.Fitting (t.joinEntry i) := by
  refine h.withEntry fun e he => ?_
  have hclaim : e.decl.role = .home → b.Fitting (t.startClaim i) := fun hhome => by
    refine h.startClaim hst fun x hx => ?_
    obtain rfl := Option.some.inj (he.symm.trans hx)
    rw [hhome]
    exact nofun
  have hact : b.Fitting (if e.decl.role = .home then t.startClaim i else if e.decl.takesOver then t.startTakeover i else t) := by
    split
    next hhome => exact hclaim hhome
    next =>
      split
      · exact h.startTakeover i
      · exact h
  split
  next => exact hact
  next => exact hact
  next =>
    split
    next hhome => exact hclaim hhome.1
    next => exact h
  all_goals exact h

/-- A QUERY is requested for a consumer in ACTIVE whose slot is NONE (R68, R69). -/
theorem append_query (hst : b.sc.state = .active) (h : b.Fitting t) (he : t.entry? i = some e) {v : View} (ho : e.ownership = .consumer v) :
    b.Fitting (t.append i queryOut) := by
  obtain ⟨hw, -, -⟩ := h.asConsumer he ho
  exact (h.but i).append_fits he (.consumer ho ⟨hw, rfl, fun hc => absurd hc (State.not_slotsMustBeClear hst)⟩)

theorem joinQuery (hst : b.sc.state = .active) (h : b.Fitting t) (i : Nat) : b.Fitting (t.joinQuery i) := by
  refine h.withEntry fun e he => ?_
  split
  next hask =>
    obtain ⟨v, ho⟩ : ∃ v, e.ownership = .consumer v := by
      obtain ⟨v, ho⟩ | ⟨prior, changed, ho⟩ | ho | ho := e.ownership.cases
      · exact ⟨v, ho⟩
      all_goals simp [ho, Ownership.isConsumer] at hask
    exact h.append_query hst he ho
  next => exact h

theorem joinActions (hst : b.sc.state = .active) (h : b.Fitting t) : b.Fitting t.joinActions :=
  (h.eachEntry fun _ i hu => joinEntry hst hu i).eachEntry fun _ i hu => joinQuery hst hu i

end State.Fitting

end Sys2Proof.Machine
end

section
/-! PROOFS. The station's events, the line, the image and the requests keep what the directory must fit (R26, R27, R54, R88, R127 to R129, R141). -/

namespace Sys2Proof.Machine

-- One proof is elaborated at a time: all that the text still has in flight here would not fit the check's memory limit.
set_option Elab.async false

/-! ## The invariant of the directory -/

/-- Every entry fits the station state and the slots-clear notice; a LEAVING PRESENCE stands only in LEAVING with the notice taken. -/
def State.DirectoryInv (s : State) : Prop :=
  (∀ e ∈ s.od.entries, e.Fits s) ∧ (s.sc.presence.carriesLeaving = true → s.sc.state = .leaving ∧ s.paths.clearNotice = .taken)

theorem State.mem_entries_iff (s : State) (e : Entry) : e ∈ s.od.entries ↔ ∃ i, s.entry? i = some e := by
  rw [List.mem_iff_getElem?]
  constructor
  · rintro ⟨k, hk⟩
    exact ⟨k + 1, hk⟩
  · rintro ⟨i, hi⟩
    obtain ⟨k, -, -, hk⟩ := State.entry?_lt hi
    exact ⟨k, hk⟩

theorem State.ownershipInv_iff (s : State) : s.OwnershipInv ↔
    s.DirectoryInv ∧ (s.il.phase.isReading = true → s.sc.state = .loading) ∧ (s.sc.state = .loading ∨ s.sc.state = .unconfigured → s.od.entries = []) := by
  constructor
  · rintro ⟨hfits, hpresence, hclear, hreads, hearly⟩
    exact ⟨⟨fun e he => ⟨hfits e he, fun hc => (State.slotsClear_iff s).mp (hclear hc.1 hc.2) e he⟩, hpresence⟩, hreads, hearly⟩
  · rintro ⟨⟨hfits, hpresence⟩, hreads, hearly⟩
    exact ⟨fun e he => (hfits e he).1, hpresence, fun hl hn => (State.slotsClear_iff s).mpr fun e he => (hfits e he).2 ⟨hl, hn⟩, hreads, hearly⟩

/-- An entry fits whatever state shares the station state and the notice. -/
theorem Entry.Fits.of_eq {s t : State} {e : Entry} (h : e.Fits s) (hst : t.sc.state = s.sc.state) (hn : t.paths.clearNotice = s.paths.clearNotice) :
    e.Fits t := by
  unfold Entry.Fits State.SlotsMustBeClear at h ⊢
  rwa [hst, hn]

/-- A consumer fits whatever the station state is, where no slot must be NONE. -/
theorem Entry.Fits.of_consumer {s t : State} {e : Entry} {v : View} (h : e.Fits s) (ho : e.ownership = .consumer v) (hst : t.sc.state ≠ .leaving) :
    e.Fits t := .of_station ((Entry.fitsStation_consumer ho).mpr ((Entry.fitsStation_consumer ho).mp h.1)) fun hc => hst hc.1

/-- Outside ACTIVE and LEAVING every entry is a consumer (R27). -/
theorem Entry.Fits.consumer_of_quiet {s : State} {e : Entry} (h : e.Fits s) (ha : s.sc.state ≠ .active) (hl : s.sc.state ≠ .leaving) :
    ∃ v, e.ownership = .consumer v := by
  obtain ⟨v, ho⟩ | ⟨prior, changed, ho⟩ | ho | ho := e.ownership.cases
  · exact ⟨v, ho⟩
  all_goals
    have hst := h.1.1 (by rw [ho]; rfl)
    exact absurd hst (not_or.mpr ⟨ha, hl⟩)

/-- Where every slot must be NONE, every entry is a consumer. -/
theorem Entry.Fits.consumer_of_clear {s : State} {e : Entry} (h : e.Fits s) (hc : s.SlotsMustBeClear) : ∃ v, e.ownership = .consumer v := by
  obtain ⟨v, ho⟩ | ⟨prior, changed, ho⟩ | ho | ho := e.ownership.cases
  · exact ⟨v, ho⟩
  all_goals exact absurd hc (h.not_slotsMustBeClear (by rw [ho]; rfl))

/-- An operation from b that leaves the directory fitting leaves its invariant, if a LEAVING PRESENCE of b is in order. -/
theorem State.Fitting.directoryInv {b t : State} (h : b.Fitting t)
    (hp : b.sc.presence.carriesLeaving = true → b.sc.state = .leaving ∧ b.paths.clearNotice = .taken) : t.DirectoryInv := by
  refine ⟨fun e he => ?_, fun ht => ?_⟩
  · obtain ⟨i, hi⟩ := (t.mem_entries_iff e).mp he
    exact (h.entry hi).of_eq h.state h.clearNotice
  · rw [h.state, h.clearNotice]
    exact hp (h.presence ht)

namespace State.DirectoryInv

variable {s : State}

theorem fitting (h : s.DirectoryInv) : s.Fitting s where
  promoted _ _ he := he.promoted
  fits _ _ he := he
  state := rfl
  clearNotice := rfl
  presence := id
  entries i e _ he := h.1 e ((s.mem_entries_iff e).mpr ⟨i, he⟩)

theorem of (h : s.DirectoryInv) {t : State} (ht : s.Fitting t) : t.DirectoryInv := ht.directoryInv h.2

/-- A change outside the directory, the station state, the notice and the PRESENCE. -/
theorem congr (h : s.DirectoryInv) {t : State} (hod : t.od.entries = s.od.entries) (hst : t.sc.state = s.sc.state)
    (hn : t.paths.clearNotice = s.paths.clearNotice) (hp : t.sc.presence = s.sc.presence) : t.DirectoryInv :=
  h.of (h.fitting.congr hod hst hn (by rw [hp]; exact id))

theorem postStation (h : s.DirectoryInv) (k : EventKind) (tag : Byte) : (s.postStation k tag).DirectoryInv := h.of (h.fitting.postStation k tag)

theorem complete (h : s.DirectoryInv) (r : Response) : (s.complete r).DirectoryInv := h.congr rfl rfl rfl rfl

theorem answer (h : s.DirectoryInv) (r : Request) (st : Status) : (s.answer r st).DirectoryInv := h.complete _

/-! ## Changes of the station state -/

/-- A directory of consumers fits every state but LEAVING, with no LEAVING PRESENCE. -/
theorem of_consumers {t : State} (hs : ∀ e ∈ t.od.entries, ∃ v, e.ownership = .consumer v ∧ e.windowTimer = none ∧ e.slot.FitsConsumer)
    (hst : t.sc.state ≠ .leaving) (hp : ¬ t.sc.presence.carriesLeaving = true) : t.DirectoryInv := by
  refine ⟨fun e he => ?_, fun ht => absurd ht hp⟩
  obtain ⟨v, ho, hfits⟩ := hs e he
  exact .of_station ((Entry.fitsStation_consumer ho).mpr hfits) fun hc => hst hc.1

section Quiet

variable (h : s.DirectoryInv) (ha : s.sc.state ≠ .active) (hl : s.sc.state ≠ .leaving)

include h hl

theorem no_leaving : ¬ s.sc.presence.carriesLeaving = true := fun hp => hl (h.2 hp).1

include ha

theorem consumers : ∀ e ∈ s.od.entries, ∃ v, e.ownership = .consumer v ∧ e.windowTimer = none ∧ e.slot.FitsConsumer := fun e he => by
  obtain ⟨v, ho⟩ := (h.1 e he).consumer_of_quiet ha hl
  exact ⟨v, ho, (Entry.fitsStation_consumer ho).mp (h.1 e he).1⟩

/-- From a state other than ACTIVE and LEAVING the station may go to any but LEAVING. -/
theorem moved {t : State} (hod : t.od.entries = s.od.entries) (hst : t.sc.state ≠ .leaving) (hp : t.sc.presence = s.sc.presence) : t.DirectoryInv := by
  refine of_consumers ?_ hst ?_
  · rw [hod]
    exact h.consumers ha hl
  · rw [hp]
    exact h.no_leaving hl

end Quiet

theorem state_postStation (s : State) (k : EventKind) (tag : Byte) :
    (s.postStation k tag).sc = s.sc ∧ (s.postStation k tag).od = s.od ∧ (s.postStation k tag).paths = s.paths := by
  obtain ⟨q, l, hq⟩ := s.post_eq k s.ownId tag (some 0#8)
  unfold State.postStation
  rw [hq]
  exact ⟨rfl, rfl, rfl⟩

theorem enterState_moved (h : s.DirectoryInv) (ha : s.sc.state ≠ .active) (hl : s.sc.state ≠ .leaving) {st : StationState} (hst : st ≠ .leaving)
    (cause : StationCause) (tag : Byte) : (s.enterState st cause tag).DirectoryInv :=
  postStation (s := { s with sc := { s.sc with state := st } }) (h.moved ha hl rfl hst rfl) _ _

/-! ## The PRESENCE -/

theorem requestPresence (h : s.DirectoryInv) {st : PresenceStatus} (hst : st = .leaving → s.sc.state = .leaving ∧ s.paths.clearNotice = .taken) :
    (s.requestPresence st).DirectoryInv := by
  have hset : ∀ p : Presence, (p.carriesLeaving = true → s.sc.presence.carriesLeaving = true ∨ st = .leaving) →
      State.DirectoryInv { s with sc := { s.sc with presence := p } } := fun p hp =>
    ⟨fun e he => (h.1 e he).of_eq rfl rfl, fun ht => (hp ht).elim h.2 hst⟩
  unfold State.requestPresence
  split
  next hnone =>
    split
    · have hqueued := hset (.queued st) fun hp => .inr (of_decide_eq_true hp)
      exact hqueued.of (hqueued.fitting.joinRoutine _)
    · exact hset (.owed st) fun hp => .inr (of_decide_eq_true hp)
  next => exact hset (.queued st) fun hp => .inr (of_decide_eq_true hp)
  next => exact hset (.owed st) fun hp => .inr (of_decide_eq_true hp)
  next a f hflight =>
    refine hset (.inFlight a (some st)) fun hp => ?_
    simp only [Presence.carriesLeaving, Bool.or_eq_true, decide_eq_true_eq, Option.some.injEq] at hp
    refine hp.imp_left fun ha => ?_
    rw [hflight, ha]
    rfl

theorem dropPresence (h : s.DirectoryInv) : s.dropPresence.DirectoryInv := by
  have hdropped : State.DirectoryInv { s with sc := { s.sc with presence := .none }, paths := { s.paths with presenceReport := none } } :=
    ⟨fun e he => (h.1 e he).of_eq rfl rfl, nofun⟩
  unfold State.dropPresence
  split
  · refine hdropped.of (FitsBut.freedRoutine ?_)
    exact hdropped.fitting.congr rfl rfl rfl id
  all_goals exact hdropped

theorem beginListening (h : s.DirectoryInv) : s.beginListening.DirectoryInv := by
  refine requestPresence ?_ nofun
  exact h.congr rfl rfl rfl rfl

theorem startPresence (h : s.DirectoryInv) : s.startPresence.DirectoryInv := by
  have hrequested : (s.requestPresence .active).DirectoryInv := h.requestPresence nofun
  exact hrequested.congr rfl rfl rfl rfl

/-! ## The slots-clear notice -/

theorem judgeSlots (h : s.DirectoryInv) : s.judgeSlots.DirectoryInv := by
  unfold State.judgeSlots
  split
  next hjudge =>
    obtain ⟨-, hnot, hclear⟩ := hjudge
    refine ⟨fun e he => ⟨(h.1 e he).1, fun _ => (State.slotsClear_iff s).mp hclear e he⟩, fun hp => ?_⟩
    obtain ⟨-, htaken⟩ := h.2 hp
    rw [hnot] at htaken
    cases htaken
  next => exact h

theorem slotsClearTaken (h : s.DirectoryInv) : s.slotsClearTaken.DirectoryInv := by
  unfold State.slotsClearTaken
  split
  next hhanded =>
    have htaken : State.DirectoryInv { s with paths := { s.paths with clearNotice := .taken } } :=
      ⟨fun e he => ⟨(h.1 e he).1, fun hc => (h.1 e he).2 ⟨hc.1, by rw [hhanded]; exact nofun⟩⟩, fun hp => ⟨(h.2 hp).1, rfl⟩⟩
    dsimp only
    split
    next hl => exact htaken.requestPresence fun _ => ⟨hl, rfl⟩
    next => exact htaken
  next => exact h

/-! ## Off the line -/

theorem goOffLine (h : s.DirectoryInv) (ha : s.sc.state ≠ .active) (hl : s.sc.state ≠ .leaving) : s.goOffLine.DirectoryInv := by
  refine of_consumers (fun e he => ?_) hl (h.no_leaving hl)
  obtain ⟨x, hx, rfl⟩ := List.mem_map.mp he
  obtain ⟨v, ho, -, hs⟩ := h.consumers ha hl x hx
  exact ⟨v, ho, rfl, hs⟩

/-- A flush leaves a directory of consumers one, with no PRESENCE. -/
theorem flush_consumers {t : State} (hs : ∀ e ∈ t.od.entries, ∃ v, e.ownership = .consumer v ∧ e.windowTimer = none) (hst : t.sc.state ≠ .leaving) :
    t.flush.DirectoryInv := by
  refine of_consumers (fun e he => ?_) hst nofun
  obtain ⟨x, hx, rfl⟩ := List.mem_map.mp he
  obtain ⟨v, ho, hw⟩ := hs x hx
  exact ⟨v, ho, hw, trivial⟩

end State.DirectoryInv

/-! ## Over the entries in index order, each left fitting in its turn -/

/-- At the index k of a sweep: entries of a lower index fit already, the others fit or are as they were at its start. -/
def State.Swept (b : State) (Q : Entry → Prop) (k j : Nat) (e : Entry) : Prop := e.Fits b ∨ (k ≤ j ∧ Q e)

/-- A sweep over the entries leaves a directory that fits, if it leaves the entry of each index fitting in its turn. -/
theorem State.FitsBut.sweep {b t : State} {Q : Entry → Prop} (hQ : ∀ e, Q e → Q e.promoted) {f : State → Nat → State}
    (hlength : ∀ u i, (f u i).od.entries.length = u.od.entries.length) (hnone : ∀ u i, u.entry? i = none → f u i = u)
    (hstep : ∀ u k e, b.FitsBut k (b.Swept Q (k + 1)) u → u.entry? k = some e → e.Fits b ∨ Q e → b.FitsBut 0 (b.Swept Q (k + 1)) (f u k))
    (hst : t.sc.state = b.sc.state) (hn : t.paths.clearNotice = b.paths.clearNotice)
    (hp : t.sc.presence.carriesLeaving = true → b.sc.presence.carriesLeaving = true) (hentries : ∀ e ∈ t.od.entries, Q e) :
    b.Fitting (t.eachEntry f) := by
  have hall : ∀ (n k : Nat) (u : State), b.FitsBut 0 (b.Swept Q k) u → b.FitsBut 0 (b.Swept Q (k + n)) ((List.range' k n).foldl f u)
      ∧ ((List.range' k n).foldl f u).od.entries.length = u.od.entries.length := fun n => by
    induction n with
    | zero => exact fun k u hu => ⟨hu, rfl⟩
    | succ n ih =>
      intro k u hu
      have hnext : b.FitsBut 0 (b.Swept Q (k + 1)) (f u k) := by
        have hbut : b.FitsBut k (b.Swept Q (k + 1)) u :=
          { hu with
            promoted := fun j e he => he.imp Entry.Fits.promoted fun ⟨hj, hq⟩ => ⟨hj, hQ e hq⟩
            fits := fun j e he => .inl he
            entries := fun j e hj he => (hu.entry he).imp_right fun ⟨hle, hq⟩ => ⟨Nat.lt_of_le_of_ne hle hj.symm, hq⟩ }
        cases he : u.entry? k with
        | none =>
          rw [hnone u k he]
          refine { hbut with entries := fun j e _ hj => ?_ }
          by_cases hjk : j = k
          · rw [hjk, he] at hj
            cases hj
          · exact hbut.entries j e hjk hj
        | some e => exact hstep u k e hbut he ((hu.entry he).imp_right (·.2))
      obtain ⟨hlast, hlen⟩ := ih (k + 1) (f u k) hnext
      rw [Nat.add_right_comm] at hlast
      exact ⟨hlast, hlen.trans (hlength u k)⟩
  obtain ⟨hlast, hlen⟩ := hall t.od.entries.length 1 t
    { promoted := fun j e he => he.imp Entry.Fits.promoted fun ⟨hj, hq⟩ => ⟨hj, hQ e hq⟩
      fits := fun j e he => .inl he
      state := hst
      clearNotice := hn
      presence := hp
      entries := fun j e hj he => .inr ⟨Nat.one_le_iff_ne_zero.mpr hj, hentries e ((t.mem_entries_iff e).mpr ⟨j, he⟩)⟩ }
  refine { hlast with promoted := fun _ e he => he.promoted, fits := fun _ _ he => he, entries := fun j e _ he => ?_ }
  refine (hlast.entry he).resolve_right fun hlate => ?_
  obtain ⟨hj, -⟩ := hlate
  obtain ⟨k, rfl, hk, -⟩ := State.entry?_lt he
  have hk' : k < t.od.entries.length := hlen ▸ hk
  omega

end Sys2Proof.Machine
end

section
/-! PROOFS. The station's own events (leaving, muting, faults, LINE restart, joining) keep what the directory must fit. -/

namespace Sys2Proof.Machine

-- One proof is elaborated at a time: all that the text still has in flight here would not fit the check's memory limit.
set_option Elab.async false

/-! ## The sweeps of the station's events -/

/-- In LEAVING the leave brings an entry that fitted ACTIVE to one that fits LEAVING (R54). -/
theorem State.FitsBut.leaveEntry {F : Nat → Entry → Prop} {b t : State} {i : Nat} {e : Entry} (h : b.FitsBut i F t) (he : t.entry? i = some e)
    (hst : b.sc.state = .leaving) (hc : ¬ b.SlotsMustBeClear) (hfits : e.FitsStation .active ∨ e.FitsStation .leaving) :
    b.FitsBut 0 F (t.leaveEntry i) := by
  obtain ⟨v, ho⟩ | ⟨prior, changed, ho⟩ | ho | ho := e.ownership.cases
  · rw [State.leaveEntry_consumer he ho]
    have hs : e.windowTimer = none ∧ e.slot.FitsConsumer := hfits.elim (Entry.fitsStation_consumer ho).mp (Entry.fitsStation_consumer ho).mp
    exact h.put_fits he (Entry.Fits.consumer (e := { e with takeoverTimer := none }) ho ⟨hs.1, hs.2, fun hmust => absurd hmust hc⟩)
  · have hs : e.decl.role ≠ .listen ∧ e.slot.FitsClaimant e.windowTimer := by
      obtain hfits | hfits := hfits
      · obtain ⟨hr, ⟨-, hs⟩ | ⟨hl, -⟩⟩ := (Entry.fitsStation_claiming ho).mp hfits
        · exact ⟨hr, hs⟩
        · cases hl
      · obtain ⟨hr, ⟨hl, -⟩ | ⟨-, ⟨o, hs, hk⟩, hw⟩⟩ := (Entry.fitsStation_claiming ho).mp hfits
        · cases hl
        · exact ⟨hr, by rw [hs]; exact ⟨hk, hw, .inr rfl⟩⟩
    rw [State.leaveEntry_claiming he ho]
    refine h.cancelClaim he ho (.inr hst) hc hs.1 hs.2 fun u hu => ?_
    rwa [State.takeoverIfOrphaned_inactive (by rw [hu.state, hst]; exact nofun)]
  · have hs : e.decl.role ≠ .listen ∧ e.slot.FitsOwner :=
      hfits.elim (fun hf => ((Entry.fitsStation_own ho).mp hf).2) fun hf => ((Entry.fitsStation_own ho).mp hf).2
    rw [State.leaveEntry_own he ho]
    exact h.startYield he (.inr hst) hc hs.1 hs.2 none
  · have hs : e.decl.role ≠ .listen ∧ e.slot.FitsYielding :=
      hfits.elim (fun hf => ((Entry.fitsStation_yielding ho).mp hf).2) fun hf => ((Entry.fitsStation_yielding ho).mp hf).2
    rw [State.leaveEntry_yielding he ho]
    exact h.close he (h.fits i e (.yields ho (.inr hst) hc hs.1 hs.2))

/-- With its slot NONE, an entry is given up by the mute or the fault, and fits as a consumer (R25). -/
theorem State.FitsBut.loseEntry {F : Nat → Entry → Prop} {b t : State} {i : Nat} {e : Entry} (h : b.FitsBut i F t) (he : t.entry? i = some e)
    (hs : e.slot = .none) (cause : LossCause) : b.FitsBut 0 F (t.loseEntry cause i) := by
  have hgivenUp : b.FitsBut 0 F (t.put i e.givenUp) :=
    h.put_fits he (Entry.Fits.consumer (e := e.givenUp) rfl (Entry.fitsAsConsumer_none hs rfl))
  obtain ⟨v, ho⟩ | ⟨prior, changed, ho⟩ | ho | ho := e.ownership.cases
  · rw [State.loseEntry_consumer he ho]
    exact h.put_fits he (Entry.Fits.consumer (e := e.stopOwnTimers) ho (Entry.fitsAsConsumer_none hs rfl))
  · rw [State.loseEntry_claiming he ho]
    exact (h.put he _).returnToPrior (State.entry?_put_same he e.stopOwnTimers) ho (Entry.fitsAsConsumer_none hs rfl) _
  · rw [State.loseEntry_own he ho]
    exact postRecords _ _ hgivenUp
  · rw [State.loseEntry_yielding he ho]
    exact postRecords _ _ hgivenUp

theorem Entry.promoted_none {e : Entry} (hs : e.slot = .none) : e.promoted.slot = .none := by
  unfold Entry.promoted
  rw [hs]
  exact hs

/-! ## The station state after the small operations -/

theorem State.state_enterState (s : State) (st : StationState) (cause : StationCause) (tag : Byte) : (s.enterState st cause tag).sc.state = st :=
  (State.Outside.postStation { s with sc := { s.sc with state := st } } _ _).state

theorem State.state_dropPresence (s : State) : s.dropPresence.sc.state = s.sc.state := by
  unfold State.dropPresence
  split
  · exact (State.Outside.freedRoutine _).state
  all_goals rfl

theorem State.state_startPresence (s : State) : s.startPresence.sc.state = s.sc.state := (State.Outside.requestPresence s .active).state

namespace State.DirectoryInv

variable {s : State}

/-- After a flush, the loss of every own state leaves a directory of consumers (R25, R140). -/
theorem loseAll {t : State} (ha : t.sc.state ≠ .active) (hl : t.sc.state ≠ .leaving) (cause : LossCause) : (t.flush.loseAll cause).DirectoryInv := by
  refine State.Fitting.directoryInv (b := t.flush) ?_ nofun
  refine State.FitsBut.sweep (Q := fun e => e.slot = .none) (fun _ => Entry.promoted_none)
    (fun u i => (State.Outside.loseEntry u cause i).length) (fun u i hu => State.withEntry_none hu _) (fun u k e hu he hfits => ?_) rfl rfl id ?_
  · obtain hfits | hs := hfits
    · obtain ⟨v, ho⟩ := hfits.consumer_of_quiet ha hl
      rw [State.loseEntry_consumer he ho]
      exact hu.put_fits he (Entry.Fits.consumer (e := e.stopOwnTimers) ho ⟨rfl, ((Entry.fits_consumer ho).mp hfits).2⟩)
    · exact hu.loseEntry he hs cause
  · intro e he
    obtain ⟨x, -, rfl⟩ := List.mem_map.mp he
    rfl

theorem leaveActive (h : s.DirectoryInv) (hst : s.sc.state = .active) (r : Request) : (s.leaveActive r).DirectoryInv := by
  refine answer (judgeSlots ?_) r _
  let left : State := { s with
    sc := { s.sc with leaveTag := some r.tag, presenceTimer := none, state := .leaving }, paths := { s.paths with clearNotice := .notGiven } }
  obtain ⟨hsc, hod, hpaths⟩ := state_postStation left (.station .leaving .leave) r.tag
  have hnotClear : ¬ left.SlotsMustBeClear := fun hc => hc.2 rfl
  refine State.Fitting.directoryInv (b := left) ?_ fun hp => ?_
  · refine State.FitsBut.sweep (Q := fun e => e.FitsStation .active) (fun _ => Entry.fitsStation_promoted)
      (fun u i => (State.Outside.leaveEntry u i).length) (fun u i hu => State.withEntry_none hu _)
      (fun u k e hu he hfits => hu.leaveEntry he rfl hnotClear (hfits.symm.imp_right (·.1)))
      (congrArg Sc.state hsc) (congrArg Paths.clearNotice hpaths) (fun hp => ?_) fun e he => ?_
    · exact (congrArg (·.presence.carriesLeaving) hsc).symm.trans hp
    · have he' : e ∈ s.od.entries := (congrArg Od.entries hod : _ = s.od.entries) ▸ he
      have hfits := (h.1 e he').1
      rwa [hst] at hfits
  · obtain ⟨hleaving, -⟩ := h.2 hp
    rw [hst] at hleaving
    cases hleaving

theorem leaveQuiet (h : s.DirectoryInv) (ha : s.sc.state ≠ .active) (hl : s.sc.state ≠ .leaving) (r : Request) : (s.leaveQuiet r).DirectoryInv := by
  have hstopped : State.DirectoryInv { s with sc := { s.sc with joinTimer := none, muteTimer := none } } := h.congr rfl rfl rfl rfl
  have hdetached := hstopped.enterState_moved ha hl (st := .detached) nofun .leave r.tag
  have hstate := (state_dropPresence _).trans (state_enterState { s with sc := { s.sc with joinTimer := none, muteTimer := none } } .detached .leave r.tag)
  refine answer (goOffLine hdetached.dropPresence ?_ ?_) r _
  · rw [hstate]
    exact nofun
  · rw [hstate]
    exact nofun

theorem leaveTaken (h : s.DirectoryInv) (hst : s.sc.state ≠ .leaving) (r : Request) : (s.leaveTaken r).DirectoryInv := by
  unfold State.leaveTaken
  split
  next ha => exact h.leaveActive ha r
  next ha => exact h.leaveQuiet ha hst r

/-- The end of LEAVING: every entry is a consumer by then, and the part goes off the line (R153). -/
theorem leaveDone {t : State} (hs : ∀ e ∈ t.od.entries, ∃ v, e.ownership = .consumer v ∧ e.windowTimer = none) : t.leaveDone.DirectoryInv := by
  have hflushed : State.DirectoryInv { t.flush with sc := { t.flush.sc with leaveTag := none, state := .detached } } := by
    refine of_consumers (fun e he => ?_) nofun nofun
    obtain ⟨x, hx, rfl⟩ := List.mem_map.mp he
    obtain ⟨v, ho, hw⟩ := hs x hx
    exact ⟨v, ho, hw, trivial⟩
  have hstate := state_enterState { t.flush with sc := { t.flush.sc with leaveTag := none } } .detached .leaveDone (t.sc.leaveTag.getD 0#8)
  refine goOffLine (hflushed.postStation _ _) ?_ ?_
  · exact fun ha => nomatch hstate.symm.trans ha
  · exact fun hl => nomatch hstate.symm.trans hl

/-- The outcome of the PRESENCE: that of the LEAVING one finds every slot NONE, and so every entry a consumer (R89, R141, R153). -/
theorem presenceOutcome (h : s.DirectoryInv) : s.presenceOutcome.DirectoryInv := by
  have htaken : State.DirectoryInv { s with paths := { s.paths with presenceReport := none } } := h.congr rfl rfl rfl rfl
  have hfreed : State.DirectoryInv { s with paths := { s.paths with presenceReport := none }, sc := { s.sc with presence := .none } } :=
    ⟨fun e he => (h.1 e he).of_eq rfl rfl, nofun⟩
  unfold State.presenceOutcome
  split
  · exact h
  · dsimp only
    split
    next st follow hflight =>
      split
      next hdone =>
        refine leaveDone fun e he => ?_
        have hcarries : s.sc.presence.carriesLeaving = true := by
          rw [hflight, hdone.1]
          rfl
        obtain ⟨hl, hn⟩ := h.2 hcarries
        obtain ⟨v, ho⟩ := (h.1 e he).consumer_of_clear ⟨hl, by rw [hn]; exact nofun⟩
        exact ⟨v, ho, ((Entry.fits_consumer ho).mp (h.1 e he)).1⟩
      next =>
        split
        · exact hfreed
        next next =>
          refine hfreed.requestPresence fun hnext => h.2 ?_
          rw [hflight, hnext]
          simp [Presence.carriesLeaving]
    all_goals exact htaken

/-! ## Muting, faults, LINE restart -/

theorem mute (s : State) : s.mute.DirectoryInv := by
  let stopped : State := { s with sc := { s.sc with leaveTag := none, presenceTimer := none } }
  have hstate := state_enterState stopped .muted .lineFailure 0#8
  have hlost := loseAll (t := (stopped.enterState .muted .lineFailure 0#8).transmitterOff) (fun ha => nomatch hstate.symm.trans ha)
    (fun hl => nomatch hstate.symm.trans hl) .muted
  exact hlost.congr rfl rfl rfl rfl

theorem faultStation (s : State) : s.faultStation.DirectoryInv := by
  let stopped : State := { s with sc := { s.sc with leaveTag := none, joinTimer := none, presenceTimer := none, muteTimer := none } }
  have hstate := state_enterState stopped .faulted .duplicate 0#8
  have hlost := loseAll (t := (stopped.enterState .faulted .duplicate 0#8).transmitterOff.receiverOff) (fun ha => nomatch hstate.symm.trans ha)
    (fun hl => nomatch hstate.symm.trans hl) .fault
  exact hlost.congr rfl rfl rfl rfl

theorem mutedTaken (h : s.DirectoryInv) : s.mutedTaken.DirectoryInv := by
  unfold State.mutedTaken
  split
  · dsimp only
    split
    · exact mute _
    · exact h.congr rfl rfl rfl rfl
  · exact h

theorem duplicateTaken (h : s.DirectoryInv) : s.duplicateTaken.DirectoryInv := by
  unfold State.duplicateTaken
  split
  · exact h
  · dsimp only
    split
    · exact faultStation _
    · exact h.congr rfl rfl rfl rfl

/-- The LINE restart leaves every entry UNKNOWN with its slot NONE (R24). -/
theorem restartLineTaken (s : State) (r : Request) : (s.restartLineTaken r).DirectoryInv := by
  let entered := s.enterState .listening .restartLine r.tag
  let b : State := { entered with sc := { entered.sc with leaveTag := none, joinTimer := none, presenceTimer := none, muteTimer := none } }
  have hst : b.sc.state = .listening := state_enterState s .listening .restartLine r.tag
  have hswept : b.Fitting (b.eachEntry State.lineRestartEntry) := by
    refine State.FitsBut.sweep (Q := fun _ => True) (fun _ _ => trivial) (fun u i => (State.Outside.lineRestartEntry u i).length)
      (fun u i hu => State.withEntry_none hu _) (fun u k e hu he _ => ?_) rfl rfl id fun _ _ => trivial
    rw [State.lineRestartEntry_eq he]
    exact State.FitsBut.postRecords _ _
      (hu.put_fits he (Entry.Fits.consumer (e := e.lineRestarted) rfl (Entry.fitsAsConsumer_none rfl rfl)))
  have hflushed : (b.eachEntry State.lineRestartEntry).flush.DirectoryInv := by
    refine flush_consumers (fun e he => ?_) (by rw [hswept.state, hst]; exact nofun)
    obtain ⟨i, hi⟩ := (State.mem_entries_iff _ e).mp he
    have hfits := hswept.entry hi
    obtain ⟨v, ho⟩ := hfits.consumer_of_quiet (by rw [hst]; exact nofun) (by rw [hst]; exact nofun)
    exact ⟨v, ho, ((Entry.fits_consumer ho).mp hfits).1⟩
  refine answer (beginListening ?_) r _
  exact hflushed.congr rfl rfl rfl rfl

/-! ## Joining -/

theorem joinTaken (h : s.DirectoryInv) (ha : s.sc.state ≠ .active) (hl : s.sc.state ≠ .leaving) (r : Request) : (s.joinTaken r).DirectoryInv :=
  (h.enterState_moved ha hl (st := .listening) nofun .join r.tag).beginListening.answer r _

theorem muteExpired (h : s.DirectoryInv) : s.muteExpired.DirectoryInv := by
  unfold State.muteExpired
  split
  next hdue =>
    have hstopped : State.DirectoryInv { s with sc := { s.sc with muteTimer := none } } := h.congr rfl rfl rfl rfl
    exact (hstopped.enterState_moved (by rw [hdue.1]; exact nofun) (by rw [hdue.1]; exact nofun) (st := .listening) nofun .muteDone 0#8).beginListening
  next => exact h

/-- The join actions and the first PRESENCE in ACTIVE, in either order (R53, R69, R87). -/
theorem activated (h : s.DirectoryInv) (hst : s.sc.state = .active) (presenceFirst : Bool) :
    (if presenceFirst then s.startPresence.joinActions else s.joinActions.startPresence).DirectoryInv := by
  split
  · exact h.startPresence.of (State.Fitting.joinActions ((state_startPresence s).trans hst) h.startPresence.fitting)
  · exact (h.of (State.Fitting.joinActions hst h.fitting)).startPresence

theorem joinListenExpired (h : s.DirectoryInv) (presenceFirst : Bool) : (s.joinListenExpired presenceFirst).DirectoryInv := by
  unfold State.joinListenExpired
  split
  next hdue =>
    have hswept : s.Fitting s.joinSweep := h.fitting.joinSweep
    have hinv : s.joinSweep.DirectoryInv := h.of hswept
    have hlistening : s.joinSweep.sc.state = .listening := hswept.state.trans hdue.1
    generalize s.joinSweep = u at hinv hlistening ⊢
    have hstopped : State.DirectoryInv { u with sc := { u.sc with joinTimer := none } } := hinv.congr rfl rfl rfl rfl
    have hactive := hstopped.enterState_moved (by show u.sc.state ≠ _; rw [hlistening]; exact nofun)
      (by show u.sc.state ≠ _; rw [hlistening]; exact nofun) (st := .active) nofun .listenDone 0#8
    exact hactive.activated (state_enterState _ _ _ _) presenceFirst
  next => exact h

theorem presenceExpired (h : s.DirectoryInv) : s.presenceExpired.DirectoryInv := by
  have hrestarted : State.DirectoryInv { s with sc := { s.sc with presenceTimer := some s.ownPeriod } } := h.congr rfl rfl rfl rfl
  unfold State.presenceExpired
  split
  · dsimp only
    split
    · exact hrestarted.requestPresence nofun
    all_goals exact hrestarted
  · exact h

end State.DirectoryInv

end Sys2Proof.Machine
end

section
/-! PROOFS. The line, the filter, the peer table, the port, the image and the requests keep what the directory must fit (R26, R27, R127 to R129). -/

namespace Sys2Proof.Machine

-- One proof is elaborated at a time: all that the text still has in flight here would not fit the check's memory limit.
set_option Elab.async false

namespace State.Fitting

variable {b t : State} {i : Nat} {e : Entry}

/-! ## The take -/

/-- A telegram taken from its queue is in flight with no follow-up (R115, R137). -/
theorem taken_fits (h : b.Fitting t) (he : t.entry? i = some e) {o : Outbound} (hs : e.slot = .queued o) :
    ({ e with slot := .inFlight o .none } : Entry).Fits b := by
  have hfits := h.entry he
  obtain ⟨v, ho⟩ | ⟨prior, changed, ho⟩ | ho | ho := e.ownership.cases
  · obtain ⟨hw, hslot, hc⟩ := h.asConsumer he ho
    rw [hs] at hslot hc
    exact .consumer ho ⟨hw, .inl ⟨.inl hslot, rfl⟩, fun hmust => nomatch hc hmust⟩
  · obtain ⟨hr, -, ⟨hst, hslot⟩ | ⟨-, ⟨o', hslot, -⟩, -⟩⟩ := hfits.of_claiming ho
    · rw [hs] at hslot
      exact .claimant ho hst hr ⟨hslot.1, hslot.2, .inl rfl⟩
    · rw [hs] at hslot
      cases hslot
  · obtain ⟨hst, hr, hslot⟩ := hfits.of_own ho
    rw [hs] at hslot
    exact .owner ho hst hr (.inl ⟨hslot, rfl⟩)
  · obtain ⟨hst, hc, hr, hslot⟩ := hfits.of_yielding ho
    rw [hs] at hslot
    exact .yields ho hst hc hr (.inl ⟨hslot, rfl⟩)

theorem takeUrgent (h : b.Fitting t) (i : Nat) (rest : List Nat) : b.Fitting (t.takeUrgent i rest) := by
  cases he : t.entry? i with
  | none =>
    unfold State.takeUrgent
    rwa [State.withEntry_none he]
  | some e =>
    cases hs : e.slot with
    | none | waiting _ | owed _ | inFlight _ _ =>
      unfold State.takeUrgent
      rw [State.withEntry_some he, hs]
      exact h
    | queued o =>
      rw [State.takeUrgent_queued he hs]
      have hput : b.Fitting (State.put { t with ts := { t.ts with urgent := rest } } i { e with slot := .inFlight o .none }) :=
        ((h.but i).put_fits he (h.taken_fits he hs)).congr rfl rfl rfl id
      refine FitsBut.offerUrgent ?_
      exact hput.congr rfl rfl rfl id

theorem takeRoutine (h : b.Fitting t) (r : Ref) (rest : List Ref) : b.Fitting (t.takeRoutine r rest) := by
  cases r with
  | entry i =>
    cases he : t.entry? i with
    | none =>
      unfold State.takeRoutine
      dsimp only
      rwa [State.withEntry_none he]
    | some e =>
      cases hs : e.slot with
      | none | waiting _ | owed _ | inFlight _ _ =>
        unfold State.takeRoutine
        dsimp only
        rw [State.withEntry_some he, hs]
        exact h
      | queued o =>
        rw [State.takeRoutine_queued he hs]
        have hput : b.Fitting (State.put { t with ts := { t.ts with routine := rest } } i { e with slot := .inFlight o .none }) :=
          ((h.but i).put_fits he (h.taken_fits he hs)).congr rfl rfl rfl id
        refine FitsBut.freedRoutine ?_
        exact hput.congr rfl rfl rfl id
  | presence =>
    cases hp : t.sc.presence with
    | none | owed _ | inFlight _ _ =>
      unfold State.takeRoutine
      dsimp only
      rw [hp]
      exact h
    | queued st =>
      rw [State.takeRoutine_presence hp]
      refine FitsBut.freedRoutine ?_
      refine h.congr rfl rfl rfl fun hflight => ?_
      rw [hp]
      simpa [Presence.carriesLeaving] using hflight

theorem take (h : b.Fitting t) (age : Nat) : b.Fitting (t.take age) := by
  unfold State.take
  split
  · split
    next i rest _ => exact h.takeUrgent i rest
    next =>
      split
      next => exact h
      next r rest _ =>
        split
        · exact h.takeRoutine r rest
        · exact h
  · exact h

/-! ## What the directory has no part in -/

/-- Everything but OD's entries, SC's record and the paths. -/
theorem aside (h : b.Fitting t) {u : State} (hod : u.od = t.od) (hsc : u.sc = t.sc) (hn : u.paths.clearNotice = t.paths.clearNotice) : b.Fitting u :=
  h.congr (congrArg Od.entries hod) (congrArg Sc.state hsc) hn (by rw [hsc]; exact id)

theorem lineQuiet (h : b.Fitting t) : b.Fitting t.lineQuiet := by
  unfold State.lineQuiet
  split
  · exact h.aside rfl rfl rfl
  · exact h

theorem lineBusy (h : b.Fitting t) : b.Fitting t.lineBusy := by
  unfold State.lineBusy
  split
  · exact h.aside rfl rfl rfl
  · exact h

theorem retryAttempt (h : b.Fitting t) (age : Nat) : b.Fitting (t.retryAttempt age) := by
  unfold State.retryAttempt
  split
  · split
    · exact h.aside rfl rfl rfl
    · exact h
  all_goals exact h

theorem report (h : b.Fitting t) (r : Ref) (outcome : TxOutcome) : b.Fitting (t.report r outcome) := by
  cases r with
  | entry _ | presence => exact h.aside rfl rfl rfl

theorem recover (h : b.Fitting t) : b.Fitting t.recover := by
  unfold State.recover
  split
  · refine FitsBut.postStation ?_ _ _
    exact h.aside rfl rfl rfl
  · exact h

theorem sent (h : b.Fitting t) : b.Fitting t.sent := by
  unfold State.sent
  split
  next =>
    refine recover (FitsBut.bump (report ?_ _ _) _)
    exact h.aside rfl rfl rfl
  all_goals exact h

theorem collide (h : b.Fitting t) (bit : Nat) (level : Bool) : b.Fitting (t.collide bit level) := by
  unfold State.collide
  split
  next =>
    split
    · split
      · exact h
      · refine FitsBut.bump ?_ _
        exact h.aside rfl rfl rfl
    · exact h
  all_goals exact h

theorem abandon (h : b.Fitting t) (held : Held) : b.Fitting (t.abandon held) := by
  have hcounted : b.Fitting ((({ t with lc := { t.lc with tx := .idle, abandons := t.lc.abandons + 1 } } : State).report held.ref .abandoned).bump
      .abandoned) := by
    refine FitsBut.bump (report ?_ _ _) _
    exact h.aside rfl rfl rfl
  have hmuted : ∀ (u : State) (x : Lc), b.Fitting u →
      b.Fitting { State.postStation { u with lc := x } (.line .muted) 0#8 with
        paths := { (State.postStation { u with lc := x } (.line .muted) 0#8).paths with mutedReport := true } } := fun u x hu => by
    have hposted : b.Fitting (State.postStation { u with lc := x } (.line .muted) 0#8) := by
      refine FitsBut.postStation ?_ _ _
      exact hu.aside rfl rfl rfl
    exact hposted.aside rfl rfl rfl
  unfold State.abandon
  dsimp only
  split
  · exact hcounted
  · exact hmuted _ _ hcounted

theorem jamEnd (h : b.Fitting t) : b.Fitting t.jamEnd := by
  unfold State.jamEnd
  split
  next =>
    split
    · exact h.aside rfl rfl rfl
    · exact h.abandon _
  all_goals exact h

theorem receivedBytes (h : b.Fitting t) (bytes : List Byte) : b.Fitting (t.receivedBytes bytes) := by
  unfold State.receivedBytes
  split
  · exact h.aside rfl rfl rfl
  · exact FitsBut.bump h _

theorem reception (h : b.Fitting t) (levels : List Bool) : b.Fitting (t.reception levels) := by
  unfold State.reception
  split
  · split
    · refine FitsBut.bump ?_ _
      exact h.aside rfl rfl rfl
    · refine receivedBytes ?_ _
      exact h.aside rfl rfl rfl
    all_goals exact h
  · exact h

/-! ## The filter, the ring and the peer table -/

theorem route (h : b.Fitting t) (m : Telegram) : b.Fitting (t.route m) := by
  unfold State.route
  split
  · exact h
  · split
    · exact h.aside rfl rfl rfl
    · split
      · exact h.aside rfl rfl rfl
      · exact h

theorem filter (h : b.Fitting t) (m : Telegram) : b.Fitting (t.filter m) := by
  unfold State.filter
  split
  · exact FitsBut.bump h _
  · split
    · exact h.aside rfl rfl rfl
    · have hcounted : b.Fitting (t.bump .rxGood) := FitsBut.bump h _
      refine route ?_ m
      exact hcounted.aside rfl rfl rfl

theorem deliveredTelegram (h : b.Fitting t) : b.Fitting t.deliveredTelegram := by
  unfold State.deliveredTelegram
  split
  · exact h
  · refine filter ?_ _
    exact h.aside rfl rfl rfl

theorem capture (h : b.Fitting t) : b.Fitting t.capture := by
  unfold State.capture
  split
  · exact h
  · refine FitsBut.post ?_ _ _ _ _
    exact h.aside rfl rfl rfl

theorem setRow (h : b.Fitting t) (n : Nat) (row : PeerRow) : b.Fitting (t.setRow n row) := by
  cases n with
  | zero => exact h
  | succ k => exact h.aside rfl rfl rfl

theorem giveNotice (h : b.Fitting t) (n : Byte) (cause : NoticeCause) : b.Fitting (t.giveNotice n cause) := h.aside rfl rfl rfl

theorem takeHeard (h : b.Fitting t) (fits : Telegram → Bool) {k : State → PeerRow → Telegram → State}
    (hk : ∀ u row m, b.Fitting u → b.Fitting (k u row m)) : b.Fitting (t.takeHeard fits k) := by
  unfold State.takeHeard
  split
  · exact h
  · split
    · have htaken := fun rest => h.aside (u := { t with paths := { t.paths with toPm := rest } }) rfl rfl rfl
      dsimp only
      split
      · exact htaken _
      · exact hk _ _ _ (htaken _)
    · exact h

theorem heard (h : b.Fitting t) : b.Fitting t.heard := by
  refine h.takeHeard _ fun u row m hu => ?_
  dsimp only
  split
  · exact hu.setRow _ _
  · exact FitsBut.post (hu.setRow _ _) _ _ _ _

theorem presenceHeard (h : b.Fitting t) : b.Fitting t.presenceHeard := by
  refine h.takeHeard _ fun u row m hu => ?_
  have hjoined : b.Fitting (if row.present then u.setRow m.source.toNat ⟨true, some m.objectId, m.period, some (3 * m.period)⟩
      else (u.setRow m.source.toNat ⟨true, some m.objectId, m.period, some (3 * m.period)⟩).postPeer .joined m.source) := by
    split
    · exact hu.setRow _ _
    · exact FitsBut.post (hu.setRow _ _) _ _ _ _
  dsimp only
  split
  · exact hjoined
  · split
    · exact hjoined
    · exact giveNotice (FitsBut.post hjoined _ _ _ _) _ _

theorem leavingHeard (h : b.Fitting t) : b.Fitting t.leavingHeard :=
  h.takeHeard _ fun _ _ _ hu => giveNotice (FitsBut.post (hu.setRow _ _) _ _ _ _) _ _

theorem silenceExpired (h : b.Fitting t) (n : Nat) : b.Fitting (t.silenceExpired n) := by
  unfold State.silenceExpired
  split
  · exact h
  · split
    · exact giveNotice (FitsBut.post (h.setRow _ _) _ _ _ _) _ _
    · exact h

/-! ## The port -/

theorem submitWritten (h : b.Fitting t) : b.Fitting t.submitWritten := by
  unfold State.submitWritten
  split
  all_goals exact h.aside rfl rfl rfl

theorem retireWritten (h : b.Fitting t) : b.Fitting t.retireWritten := by
  unfold State.retireWritten
  split
  · exact h.aside rfl rfl rfl
  all_goals exact h

theorem popEvent (h : b.Fitting t) : b.Fitting t.popEvent := by
  obtain ⟨eu, hpop⟩ := t.popEvent_eq
  rw [hpop]
  exact h.aside rfl rfl rfl

theorem portWritten (h : b.Fitting t) (addr : BitVec 6) (byte : Byte) : b.Fitting (t.portWritten addr byte) := by
  unfold State.portWritten
  dsimp only
  split
  · exact h.aside rfl rfl rfl
  · split
    · exact h.submitWritten
    · split
      · exact h.retireWritten
      · split
        · exact h.popEvent
        · exact h

/-! ## Telegrams routed to OD -/

/-- OD takes a telegram routed to it at an entry of the directory (R1, R103). -/
theorem takeRouted (h : b.Fitting t) (kind : TelegramKind) {k : State → Nat → Entry → Telegram → State}
    (hk : ∀ u i e m, b.Fitting u → u.entry? i = some e → b.Fitting (k u i e m)) : b.Fitting (t.takeRouted kind k) := by
  unfold State.takeRouted
  split
  · exact h
  · split
    · have htaken := fun rest => h.aside (u := { t with paths := { t.paths with toOd := rest } }) rfl rfl rfl
      dsimp only
      split
      · exact htaken _
      · exact FitsBut.withEntry (htaken _) fun e he => hk _ _ e _ (htaken _) he
    · exact h

end State.Fitting

end Sys2Proof.Machine
end

section
/-! PROOFS. The timebase, the image, the requests and what OD takes keep what the directory must fit. -/

namespace Sys2Proof.Machine

-- One proof is elaborated at a time: all that the text still has in flight here would not fit the check's memory limit.
set_option Elab.async false

/-- A claim window stopped stays stopped over a tick, and one that runs runs on. -/
theorem Entry.Fits.tick {s t : State} {e : Entry} (h : e.Fits s) (hst : t.sc.state = s.sc.state) (hn : t.paths.clearNotice = s.paths.clearNotice) :
    e.tick.Fits t := by
  have hwindow : e.tick.windowTimer.isNone = e.windowTimer.isNone := by
    show (Option.map (· - 1) e.windowTimer).isNone = _
    cases e.windowTimer <;> rfl
  have hslot : ∀ l, e.tick.slotFits l = e.slotFits l := fun l => by
    unfold Entry.slotFits
    rw [hwindow]
    rfl
  obtain ⟨⟨h1, h2, h3, h4⟩, hc⟩ := h.of_eq hst hn
  exact ⟨⟨h1, h2, h3, (hslot _).trans h4⟩, hc⟩

namespace State.DirectoryInv

variable {s : State}

theorem tick (h : s.DirectoryInv) : s.tick.DirectoryInv := by
  refine ⟨fun e he => ?_, h.2⟩
  obtain ⟨x, hx, rfl⟩ := List.mem_map.mp he
  exact (h.1 x hx).tick rfl rfl

/-! ## The image -/

section Early

variable (h : s.DirectoryInv) (hst : s.sc.state = .loading ∨ s.sc.state = .unconfigured) (hempty : s.od.entries = [])

include h hst

theorem early_presence : ¬ s.sc.presence.carriesLeaving = true := by
  refine h.no_leaving fun hl => ?_
  rw [hl] at hst
  obtain hst | hst := hst <;> cases hst

theorem imageLoaded (im : Image) (tag : Byte) : (s.imageLoaded im tag).DirectoryInv := by
  have hinstalled : ∀ st : StationState, st ≠ .leaving → State.DirectoryInv { s.install im with sc := { (s.install im).sc with state := st } } := by
    refine fun st hst' => of_consumers (fun e he => ?_) hst' (h.early_presence hst)
    obtain ⟨d, -, rfl⟩ := List.mem_map.mp he
    exact ⟨.unknown, rfl, rfl, trivial⟩
  unfold State.imageLoaded
  split
  · exact ((hinstalled .listening nofun).postStation _ _).beginListening
  · exact (hinstalled .detached nofun).postStation _ _

include hempty

theorem imageFailed (f : FaultCode) (index : Nat) (tag : Byte) : (s.imageFailed f index tag).DirectoryInv := by
  have hfailed : State.DirectoryInv { s with
      il := { s.il with phase := .awaitingLoad, fault := f, faultIndex := index }, sc := { s.sc with state := .unconfigured } } := by
    refine of_consumers (fun e he => ?_) nofun (h.early_presence hst)
    have he' : e ∈ s.od.entries := he
    rw [hempty] at he'
    cases he'
  exact hfailed.of (hfailed.fitting.post _ _ _ _)

theorem validated (tag : Byte) : (s.validated tag).DirectoryInv := by
  unfold State.validated
  split
  · exact h.imageLoaded hst _ tag
  · exact h.imageFailed hst hempty _ _ tag

theorem attemptFailedAfter (failed : Nat) : (s.attemptFailedAfter failed).DirectoryInv := by
  unfold State.attemptFailedAfter
  split
  · exact h.congr rfl rfl rfl rfl
  · exact h.imageFailed hst hempty _ _ _

theorem loadFinishTaken (r : Request) : (s.loadFinishTaken r).DirectoryInv := by
  have hloaded : (s.loadBytes r).DirectoryInv := h.congr rfl rfl rfl rfl
  unfold State.loadFinishTaken
  split
  · exact h.answer r _
  · dsimp only
    split
    · exact (hloaded.imageLoaded hst _ _).answer r _
    · exact (hloaded.imageFailed hst hempty _ _ _).complete _

end Early

theorem loadTaken (h : s.DirectoryInv) (r : Request) : (s.loadTaken r).DirectoryInv := by
  unfold State.loadTaken
  split
  · exact h.answer r _
  · refine answer ?_ r _
    exact h.congr rfl rfl rfl rfl

/-! ## The requests at OD -/

theorem withRequest (h : s.DirectoryInv) {c : RequestCode} {k : Request → State} (hk : ∀ r, (k r).DirectoryInv) : (s.withRequest c k).DirectoryInv := by
  unfold State.withRequest
  split
  · split
    · exact hk _
    · exact h
  all_goals exact h

theorem accepting (h : s.DirectoryInv) {c : RequestCode} {k : Request → State} (hk : ∀ r, c.acceptedIn s.sc.state = true → (k r).DirectoryInv) :
    (s.accepting c k).DirectoryInv := by
  refine h.withRequest fun r => ?_
  split
  next hc => exact hk r hc
  next => exact h.answer r _

theorem atObject (h : s.DirectoryInv) {r : Request} {k : Nat → Entry → State} (hk : ∀ i e, s.entry? i = some e → (k i e).DirectoryInv) :
    (s.atObject r k).DirectoryInv := by
  unfold State.atObject
  split
  · exact h.answer r _
  · split
    · exact h.answer r _
    next e he => exact hk _ e he

theorem readTaken (h : s.DirectoryInv) (r : Request) : (s.readTaken r).DirectoryInv := h.atObject fun _ _ _ => h.complete _

theorem writeTaken (h : s.DirectoryInv) (r : Request) : (s.writeTaken r).DirectoryInv := by
  refine h.atObject fun i e he => ?_
  split
  next ho =>
    split
    · exact h.answer r _
    · refine complete (h.of ?_) _
      have hwritten : s.Fitting (s.modify i fun x => { x with value := r.bytes, version := some (nextVersion e.version) }) :=
        h.fitting.modify i fun _ hf => hf
      rw [State.modify_eq_put he] at hwritten
      show s.Fitting ((s.modify i _).requestChange i)
      rw [State.modify_eq_put he]
      exact hwritten.requestChange (State.entry?_put_same he _) ho
  all_goals exact h.answer r _

theorem claimTaken (h : s.DirectoryInv) (hst : s.sc.state = .active) (r : Request) : (s.claimTaken r).DirectoryInv := by
  refine h.atObject fun i e he => ?_
  split
  · exact h.answer r _
  next hrole =>
    split
    · exact h.answer r _
    · refine answer (h.of ?_) r _
      refine State.Fitting.startClaim (h.fitting.modify i fun _ hf => hf) hst fun x hx => ?_
      rw [State.entry?_modify_same, he] at hx
      obtain rfl := Option.some.inj hx
      exact hrole

theorem releaseTaken (h : s.DirectoryInv) (hst : s.sc.state = .active) (r : Request) : (s.releaseTaken r).DirectoryInv := by
  refine h.atObject fun i e he => ?_
  split
  next ho =>
    have htagged : s.Fitting (s.modify i fun e => { e with pendingTag := some r.tag }) := h.fitting.modify i fun _ hf => hf
    rw [State.modify_eq_put he] at htagged ⊢
    exact answer (h.of (htagged.startYield (State.entry?_put_same he _) ho none)) r _
  next prior changed ho =>
    obtain ⟨hr, hc, ⟨-, hs⟩ | ⟨hl, -⟩⟩ := (h.fitting.entry he).of_claiming ho
    · refine answer (h.of ?_) r _
      exact (h.fitting.but i).cancelClaim he ho (.inl hst) hc hr hs fun u hu => State.Fitting.takeoverIfOrphaned hu i
    · rw [hst] at hl
      cases hl
  all_goals exact h.answer r _

theorem queryTaken (h : s.DirectoryInv) (hst : s.sc.state = .active) (r : Request) : (s.queryTaken r).DirectoryInv := by
  refine h.atObject fun i e he => ?_
  split
  · exact h.answer r _
  next hask =>
    obtain ⟨v, ho⟩ | ⟨prior, changed, ho⟩ | ho | ho := e.ownership.cases
    · exact answer (h.of (State.Fitting.append_query hst h.fitting he ho)) r _
    all_goals simp [ho, Ownership.isConsumer] at hask

theorem peerTaken (h : s.DirectoryInv) (r : Request) : (s.peerTaken r).DirectoryInv := by
  unfold State.peerTaken
  split
  · exact h.answer r _
  · split
    · exact h.answer r _
    · exact h.complete _

theorem takeUnlistedTaken (h : s.DirectoryInv) (r : Request) : (s.takeUnlistedTaken r).DirectoryInv := by
  unfold State.takeUnlistedTaken
  split
  · exact h.answer r _
  · exact h.congr rfl rfl rfl rfl

/-! ## What OD takes, with the slots judged -/

theorem publishReceived (h : s.DirectoryInv) : s.publishReceived.DirectoryInv := by
  unfold State.publishReceived State.takeRouted
  split
  · exact h
  next m rest _ =>
    split
    · have htaken : State.DirectoryInv { s with paths := { s.paths with toOd := rest } } := h.congr rfl rfl rfl rfl
      dsimp only
      split
      · exact htaken
      next i _ =>
        cases he : State.entry? { s with paths := { s.paths with toOd := rest } } i with
        | none => rwa [State.withEntry_none he]
        | some e =>
          rw [State.withEntry_some he]
          exact (htaken.of (htaken.fitting.publishAtEntry he m)).judgeSlots
    · exact h

theorem peerNotice (h : s.DirectoryInv) : s.peerNotice.DirectoryInv := by
  unfold State.peerNotice
  split
  · exact h
  next n rest _ =>
    have htaken : State.DirectoryInv { s with paths := { s.paths with notices := rest } } := h.congr rfl rfl rfl rfl
    exact htaken.of (htaken.fitting.noticeAtOd _)

theorem outcomeReport (h : s.DirectoryInv) : s.outcomeReport.DirectoryInv := by
  unfold State.outcomeReport
  split
  · exact h
  next i outcome rest _ =>
    have htaken : State.DirectoryInv { s with paths := { s.paths with reports := rest } } := h.congr rfl rfl rfl rfl
    exact (htaken.of (htaken.fitting.outcomeAtEntry i outcome)).judgeSlots

theorem fullRestart (s : State) (cause : StationCause) : (s.fullRestart cause).DirectoryInv :=
  of_consumers (fun e he => by cases he) nofun nofun

/-! ## A command -/

theorem taken (h : s.DirectoryInv) {f : State → State} (hf : (f s).DirectoryInv) {t : State} (ht : s.taken f = .next t) : t.DirectoryInv := by
  obtain rfl := (Host.Outcome.next.inj ht).symm
  split
  · exact h
  · exact hf

end State.DirectoryInv

end Sys2Proof.Machine
end

section
/-! PROOFS. Every command keeps what the directory must fit; from this the statement O58. -/

namespace Sys2Proof.Machine

-- One proof is elaborated at a time: all that the text still has in flight here would not fit the check's memory limit.
set_option Elab.async false

/-- The memory is read in LOADING alone, and before installation the directory is empty (R146, R164). -/
def State.Uninstalled (s : State) : Prop :=
  (s.il.phase.isReading = true → s.sc.state = .loading) ∧ (s.sc.state = .loading ∨ s.sc.state = .unconfigured → s.od.entries = [])

theorem State.Uninstalled.earlyEmpty {s : State} (h : s.Uninstalled) : s.EarlyEmpty := by
  rintro (hread | hstate)
  · exact h.2 (.inl (h.1 hread))
  · exact h.2 hstate

theorem State.Move.uninstalled {ok : Prop} {s t : State} (h : State.Move ok s t) (hs : s.Uninstalled) : t.Uninstalled := by
  refine ⟨fun hread => ?_, fun hstate => h.earlyEmpty hs.earlyEmpty (.inr hstate)⟩
  obtain hplain | hmove | ⟨im, st, _, _, _, rfl⟩ := h.cases_reslots
  · obtain ⟨hread, hload⟩ := hplain.reads hread
    exact hload (hs.1 hread)
  · rw [hmove.il] at hread
    rw [hmove.station]
    exact hs.1 hread
  · cases hread

namespace State.DirectoryInv

variable {s : State}

section Reading

variable (h : s.DirectoryInv) (hu : s.Uninstalled)

include h hu

theorem headerRead (bytes : List Byte) : (s.headerRead bytes).DirectoryInv := by
  unfold State.headerRead
  split
  next failed hp =>
    have hst : s.sc.state = .loading := hu.1 (by rw [hp]; rfl)
    have hstaged : (s.stage 0 bytes).DirectoryInv := h.congr rfl rfl rfl rfl
    split
    · dsimp only
      split
      · exact hstaged.imageFailed (.inl hst) (hu.2 (.inl hst)) _ _ _
      · exact hstaged.congr rfl rfl rfl rfl
    · exact h
  all_goals exact h

theorem remainderRead (bytes : List Byte) : (s.remainderRead bytes).DirectoryInv := by
  unfold State.remainderRead
  split
  next failed hp =>
    have hst : s.sc.state = .loading := hu.1 (by rw [hp]; rfl)
    have hstaged : (s.stage Config.headerBytes bytes).DirectoryInv := h.congr rfl rfl rfl rfl
    split
    · exact hstaged.validated (.inl hst) (hu.2 (.inl hst)) _
    · exact h
  all_goals exact h

theorem attemptFailed : s.attemptFailed.DirectoryInv := by
  have hafter : s.il.phase.isReading = true → ∀ failed, (s.attemptFailedAfter failed).DirectoryInv := fun hread failed =>
    h.attemptFailedAfter (.inl (hu.1 hread)) (hu.2 (.inl (hu.1 hread))) failed
  unfold State.attemptFailed
  split
  next hp => exact hafter (by rw [hp]; rfl) _
  next hp => exact hafter (by rw [hp]; rfl) _
  all_goals exact h

end Reading

theorem attemptWaitExpired (h : s.DirectoryInv) : s.attemptWaitExpired.DirectoryInv := by
  unfold State.attemptWaitExpired
  split
  · exact h.congr rfl rfl rfl rfl
  all_goals exact h

end State.DirectoryInv

/-- A state that accepts LEAVE is not LEAVING. -/
theorem RequestCode.not_leaving_of_leave {st : StationState} (h : RequestCode.acceptedIn .leave st = true) : st ≠ .leaving := by
  rintro rfl
  cases h

theorem RequestCode.detached_of_join {st : StationState} (h : RequestCode.acceptedIn .join st = true) : st = .detached := of_decide_eq_true h

/-- Every command keeps what the directory must fit. -/
theorem exec_directoryInv {c : Instr} {s t : State} (h : s.DirectoryInv) (hu : s.Uninstalled) (ht : exec c s = .next t) : t.DirectoryInv := by
  have hfit := h.fitting
  cases c with
  | powerUp =>
    obtain rfl := (Host.Outcome.next.inj ht).symm
    exact .fullRestart s _
  | rstNAssert =>
    obtain rfl := (Host.Outcome.next.inj ht).symm
    exact h.congr rfl rfl rfl rfl
  | rstNRelease =>
    obtain rfl := (Host.Outcome.next.inj ht).symm
    split
    · exact .fullRestart _ _
    · exact h
  | restartFull =>
    refine h.taken (f := fun s => s.withRequest .restart fun r => if r.first = 2#8 then s.fullRestart .restartFull else s) (h.withRequest fun r => ?_) ht
    split
    · exact .fullRestart s _
    · exact h
  | restartLine =>
    refine h.taken (f := fun s => s.withRequest .restart fun r => if r.first = 1#8 then s.accepting .restart s.restartLineTaken else s)
      (h.withRequest fun r => ?_) ht
    split
    · exact h.accepting fun r _ => .restartLineTaken s r
    · exact h
  | load =>
    refine h.taken (f := fun s => s.withRequest .load fun r => if r.finish then s else s.accepting .load s.loadTaken) (h.withRequest fun r => ?_) ht
    split
    · exact h
    · exact h.accepting fun r _ => h.loadTaken r
  | loadFinish =>
    refine h.taken (f := fun s => s.withRequest .load fun r => if r.finish then s.accepting .load s.loadFinishTaken else s) (h.withRequest fun r => ?_) ht
    split
    · refine h.accepting fun r ha => ?_
      have hst := RequestCode.load_acceptedIn ha
      exact h.loadFinishTaken (.inr hst) (hu.2 (.inr hst)) r
    · exact h
  | portWrite addr byte => exact h.taken (f := (·.portWritten addr byte)) (h.of (hfit.portWritten addr byte)) ht
  | submit => exact h.taken (h.of hfit.submitWritten) ht
  | retire => exact h.taken (h.of hfit.retireWritten) ht
  | eventNext => exact h.taken (h.of hfit.popEvent) ht
  | read => exact h.taken (f := fun s => s.accepting .read s.readTaken) (h.accepting fun r _ => h.readTaken r) ht
  | write => exact h.taken (f := fun s => s.accepting .write s.writeTaken) (h.accepting fun r _ => h.writeTaken r) ht
  | claim =>
    exact h.taken (f := fun s => s.accepting .claim s.claimTaken) (h.accepting fun r ha => h.claimTaken (of_decide_eq_true ha) r) ht
  | release =>
    exact h.taken (f := fun s => s.accepting .release s.releaseTaken) (h.accepting fun r ha => h.releaseTaken (of_decide_eq_true ha) r) ht
  | query =>
    exact h.taken (f := fun s => s.accepting .query s.queryTaken) (h.accepting fun r ha => h.queryTaken (of_decide_eq_true ha) r) ht
  | peer => exact h.taken (f := fun s => s.accepting .peer s.peerTaken) (h.accepting fun r _ => h.peerTaken r) ht
  | status => exact h.taken (f := fun s => s.accepting .status fun r => s.complete (s.statusResponse r)) (h.accepting fun r _ => h.complete _) ht
  | counters => exact h.taken (f := fun s => s.accepting .counters s.countersTaken) (h.accepting fun r _ => h.congr rfl rfl rfl rfl) ht
  | takeUnlisted => exact h.taken (f := fun s => s.accepting .takeUnlisted s.takeUnlistedTaken) (h.accepting fun r _ => h.takeUnlistedTaken r) ht
  | attend => exact h.taken (f := fun s => s.accepting .attend s.attendTaken) (h.accepting fun r _ => h.congr rfl rfl rfl rfl) ht
  | join =>
    refine h.taken (f := fun s => s.accepting .join s.joinTaken) (h.accepting fun r ha => ?_) ht
    have hst := RequestCode.detached_of_join ha
    exact h.joinTaken (by rw [hst]; exact nofun) (by rw [hst]; exact nofun) r
  | leave =>
    exact h.taken (f := fun s => s.accepting .leave s.leaveTaken)
      (h.accepting fun r ha => h.leaveTaken (RequestCode.not_leaving_of_leave ha) r) ht
  | readHeader bytes => exact h.taken (f := (·.headerRead bytes)) (h.headerRead hu bytes) ht
  | readRemainder bytes => exact h.taken (f := (·.remainderRead bytes)) (h.remainderRead hu bytes) ht
  | attemptFailed => exact h.taken (h.attemptFailed hu) ht
  | attemptWaitExpiry => exact h.taken h.attemptWaitExpired ht
  | lineQuiet => exact h.taken (h.of hfit.lineQuiet) ht
  | lineBusy => exact h.taken (h.of hfit.lineBusy) ht
  | take age => exact h.taken (f := (·.take age)) (h.of (hfit.take age)) ht
  | retryAttempt age => exact h.taken (f := (·.retryAttempt age)) (h.of (hfit.retryAttempt age)) ht
  | sent => exact h.taken (h.of hfit.sent) ht
  | collision bit level => exact h.taken (f := (·.collide bit level)) (h.of (hfit.collide bit level)) ht
  | jamEnd => exact h.taken (h.of hfit.jamEnd) ht
  | reception levels => exact h.taken (f := (·.reception levels)) (h.of (hfit.reception levels)) ht
  | deliveredTelegram => exact h.taken (h.of hfit.deliveredTelegram) ht
  | duplicate => exact h.taken h.duplicateTaken ht
  | capture => exact h.taken (h.of hfit.capture) ht
  | heard => exact h.taken (h.of hfit.heard) ht
  | presenceHeard => exact h.taken (h.of hfit.presenceHeard) ht
  | leavingPresenceHeard => exact h.taken (h.of hfit.leavingHeard) ht
  | peerNotice => exact h.taken h.peerNotice ht
  | publishReceived => exact h.taken h.publishReceived ht
  | claimReceived => exact h.taken (h.of (hfit.takeRouted .claim fun _ _ _ m hv he => hv.claimAtEntry he m)) ht
  | yieldReceived => exact h.taken (h.of (hfit.takeRouted .yield fun _ _ _ m hv he => hv.yieldAtEntry he m)) ht
  | queryReceived => exact h.taken (h.of (hfit.takeRouted .query fun _ _ _ m hv he => hv.queryAtEntry he m)) ht
  | outcomeReport => exact h.taken h.outcomeReport ht
  | slotsClearNotice => exact h.taken h.slotsClearTaken ht
  | presenceOutcome => exact h.taken h.presenceOutcome ht
  | mutedReport => exact h.taken h.mutedTaken ht
  | freshnessDeadlineExpiry index => exact h.taken (f := (·.freshnessExpired index)) (h.of (hfit.freshnessExpired index)) ht
  | refreshTimerExpiry index => exact h.taken (f := (·.refreshExpired index)) (h.of (hfit.refreshExpired index)) ht
  | spacingTimerExpiry index => exact h.taken (f := (·.spacingExpired index)) (h.of (hfit.spacingExpired index)) ht
  | claimWindowExpiry index => exact h.taken (f := (·.windowExpired index)) (h.of (hfit.windowExpired index)) ht
  | takeoverTimerExpiry index => exact h.taken (f := (·.takeoverExpired index)) (h.of (hfit.takeoverExpired index)) ht
  | silenceDeadlineExpiry station => exact h.taken (f := (·.silenceExpired station)) (h.of (hfit.silenceExpired station)) ht
  | joinListenExpiry presenceFirst => exact h.taken (f := (·.joinListenExpired presenceFirst)) (h.joinListenExpired presenceFirst) ht
  | presenceTimerExpiry => exact h.taken h.presenceExpired ht
  | muteTimerExpiry => exact h.taken h.muteExpired ht
  | millisecondTick => exact h.taken h.tick ht

theorem exec_uninstalled {c : Instr} {s t : State} (h : s.Uninstalled) (ht : exec c s = .next t) : t.Uninstalled := by
  cases exec_stepped ht with
  | moves hm => exact hm.keeps (fun _ _ hm => hm.uninstalled) h
  | popped _ ht =>
    obtain ⟨eu, hpop⟩ := s.popEvent_eq
    rw [ht, hpop]
    exact h
  | restarted low cause _ ht =>
    rw [ht]
    exact ⟨fun _ => rfl, fun _ => rfl⟩

end Sys2Proof.Machine

/-! ## The statement -/

namespace Sys2Proof
open Sys2Proof.Machine

/-- Settles O58: every command keeps the fit of the directory; that the memory is read in LOADING alone and the directory empty before installation,
each of its moves keeps. -/
theorem ownStatesAndSlotsFitTheStationState : Obligations.OwnStatesAndSlotsFitTheStationState := by
  intro s t hs h
  have hkept : t.DirectoryInv ∧ t.Uninstalled :=
    step_keeps (P := fun s => s.DirectoryInv ∧ s.Uninstalled) (fun _ _ hs => ⟨hs.1.congr rfl rfl rfl rfl, hs.2⟩)
      (fun _ _ _ hs ht => ⟨exec_directoryInv hs.1 hs.2 ht, exec_uninstalled hs.2 ht⟩) (s.ownershipInv_iff.mp hs) h
  exact t.ownershipInv_iff.mpr hkept

end Sys2Proof
end
